-- ==== Sys2Proof/Word.lean ====
section
/-! DEFINITION. The plain data types of the model: words, format tags, sorted maps, and the records that travel
between the agents of the device (messages, packets, blocks, transfers). Nothing here computes an instruction's
effect; the helpers a test could show wrong live under Machine/. -/

namespace Sys2Proof

/-- A 64-bit scalar value. -/
abbrev Word := BitVec 64
/-- One byte of any memory. -/
abbrev Byte := BitVec 8
/-- One 32-bit lane of a vector value. -/
abbrev Lane := BitVec 32

/-- A finite map from natural numbers, as a list of pairs with rising keys. What an absent key reads as is named
where the map is read. -/
abbrev NMap (α : Type) := List (Nat × α)

/-- The value at key `n`, or `d` where the map lists none. -/
def NMap.get {α : Type} (d : α) : NMap α → Nat → α
  | [], _ => d
  | (k, v) :: t, n => if n = k then v else NMap.get d t n

/-- The map with key `n` carrying `a`; keys stay rising. -/
def NMap.put {α : Type} : NMap α → Nat → α → NMap α
  | [], n, a => [(n, a)]
  | (k, v) :: t, n, a =>
    if n < k then (n, a) :: (k, v) :: t
    else if n = k then (n, a) :: t
    else (k, v) :: NMap.put t n a

/-- The map without key `n`. -/
def NMap.del {α : Type} (m : NMap α) (n : Nat) : NMap α := m.filter (fun e => e.1 != n)

/-- The map that gives `f k` to every key below `n`. -/
def NMap.ofFn {α : Type} (n : Nat) (f : Nat → α) : NMap α := (List.range n).map (fun k => (k, f k))

/-- The sixteen format tags of R39. -/
inductive Fmt where
  | raw | fp32 | bf16 | fp16 | e5m2 | e4m3 | e2m1 | int32 | int16 | int8 | uint8 | bin8 | mask | kb9 | kb6 | kb4
  deriving DecidableEq, Repr, Inhabited

/-- A vector value: 16 × 64 lanes of 32 bits (lane (r, c) at key 64 r + c, an absent lane is zero), its format
tag, and the untagged-broadcast mark of R10. -/
structure VVal where
  lanes : NMap Lane
  tag : Fmt
  unt : Bool
  deriving DecidableEq, Repr

/-- The zero vector value with tag RAW (R13). -/
def VVal.zero : VVal := ⟨[], .raw, false⟩

/-- A value at an operand latch or a result port: S width or V width (R6). -/
inductive PVal where
  | s (w : Word)
  | v (x : VVal)
  deriving DecidableEq, Repr

/-- A value a source code yields (R29): S, V or P width. -/
inductive SrcVal where
  | s (w : Word)
  | v (x : VVal)
  | p (row : NMap Lane) (tag : Fmt)
  deriving DecidableEq, Repr

/-- A message of R221: payload, stamp, sender and destination (context positions in the 13-bit layout of R14),
release mark and scope, and the launch it belongs to. -/
structure Msg where
  payload : Word
  stamp : BitVec 32
  sdev : BitVec 16
  src : BitVec 13
  ddev : BitVec 16
  dst : BitVec 13
  rel : Bool
  scope : BitVec 4
  launch : Word
  deriving DecidableEq, Repr

/-- What a packet on the links is. `data` is a packet of R246; the others are what devices tell one another so that the rules
named hold on every rank, whose form the spec leaves to them (log 57): a rank's command of a collective or exchange, with its
port, rank, issuer, descriptor or map, and rank table (R254, R262); the end of one on every rank with a code, a plan fault or
not (R250, R255, R268); that a device ends its part of an exchange, with the lowest code that it has met (R268); that a rank's
command is through, with its lowest code (R268); that an emitted packet has ended or been
absorbed (R255); an aqueduct block whose source failed with a code (R268); that a block has performed, with a code (R266); a
record of a batch for this device's memory: its command and index, OP, HBM address, operand and compared value (R257); the old
value of one; bytes that another device stores in this device's HBM, or that its own memory now holds (R186), with the core of the
command that stores them (384 + die for an operation that a Wharf has fired, 1000 for an aqueduct block at its receiver), its
identity and sector; and that they are visible there, with a code. `waits` is a block at its receiver whose bytes other devices
have still to make visible: the pages left, by their place in its range, and the code met (R186, R264). -/
inductive Note where
  | data
  | joined (port rank : Nat) (ctx : BitVec 13) (info : BitVec 1024) (ranks : List (BitVec 32))
  | ended (port code : Nat) (fault : Bool)
  | failing (code : Nat)
  | through (rank code : Nat)
  | gone (tag : Nat)
  | failed (code : Nat)
  | waits (left : List Nat) (code : Nat)
  | landed (rank off n code : Nat)
  | record (core id i op pa : Nat) (b e : Word)
  | recorded (core id i code : Nat) (old : Word)
  | store (from' id sec pa : Nat)
  | stored (from' id sec pa code : Nat)
  deriving DecidableEq, Repr

/-- A note of a record or a store: it belongs to no collective. -/
def Note.isMem : Note → Bool
  | .record .. | .recorded .. | .store .. | .stored .. => true
  | _ => false

/-- A packet (R246, R263): its 64-byte header, its payload, the launch its flits carry; the lock-keeper that sent it on (24 and
above: it comes from another device), the rank of the device that emitted it, and the identity it was given there, 0 for one
that leaves an accumulator. -/
structure Packet where
  hdr : BitVec 512
  payload : List Byte
  launch : Word
  src : Nat
  dev : Nat
  tag : Nat
  note : Note
  deriving DecidableEq, Repr

/-- What a request that arrives through the host link or the storage port is: a write of bytes, or a read of n bytes (R188,
R379). -/
inductive LinkData where
  | write (bs : List Byte)
  | read (n : Nat)
  deriving DecidableEq, Repr

/-- What a peer transfer is: a write or a read on its way to the receiving core, or the answer to one. -/
inductive PeerKind where
  | write | read | wrote | answer
  deriving DecidableEq, Repr

/-- A peer transfer (R187, R270): sender rank and core, target rank, core and tile offset, bytes, the data, what it is, the code
and FIRST of an answer (R144), the sending command's identity, and the launch of its flits. -/
structure PeerXfer where
  sdev : BitVec 16
  score : BitVec 11
  ddev : BitVec 16
  tcore : BitVec 11
  toff : BitVec 21
  len : Nat
  data : List Byte
  kind : PeerKind
  code : Nat
  first : Nat
  id : Nat
  launch : Word
  deriving DecidableEq, Repr

end Sys2Proof
end

