-- ==== Sys2Proof/Syntax.lean ====
section
/-! DEFINITION. The instructions and events of the device: one constructor per row of the table of operations and
events. A constructor of the first part is one move of a bundle (R25): `g` its guard field, `s` its source field, and the
operand fields of its destination code. A constructor of the second part is an event of the device or its surroundings;
its arguments say which context, command or page it concerns. -/

namespace Sys2Proof

/-- One instruction or event. Every constructor's docstring is the rule of its row. -/
inductive Instr where
  /-- MOVE (R32). -/
  | move (g : BitVec 4) (s d : BitVec 10)
  /-- NOP (R25). -/
  | nop
  /-- IA_ADD (R58). -/
  | iaAdd (g : BitVec 4) (s : BitVec 10) (u : BitVec 1)
  /-- IA_SUB (R58). -/
  | iaSub (g : BitVec 4) (s : BitVec 10) (u : BitVec 1)
  /-- IA_ADDW (R58). -/
  | iaAddw (g : BitVec 4) (s : BitVec 10) (u : BitVec 1)
  /-- IA_SUBW (R58). -/
  | iaSubw (g : BitVec 4) (s : BitVec 10) (u : BitVec 1)
  /-- IA_AND (R58). -/
  | iaAnd (g : BitVec 4) (s : BitVec 10) (u : BitVec 1)
  /-- IA_OR (R58). -/
  | iaOr (g : BitVec 4) (s : BitVec 10) (u : BitVec 1)
  /-- IA_XOR (R58). -/
  | iaXor (g : BitVec 4) (s : BitVec 10) (u : BitVec 1)
  /-- IA_ANDN (R58). -/
  | iaAndn (g : BitVec 4) (s : BitVec 10) (u : BitVec 1)
  /-- IA_SLL (R58). -/
  | iaSll (g : BitVec 4) (s : BitVec 10) (u : BitVec 1)
  /-- IA_SRL (R58). -/
  | iaSrl (g : BitVec 4) (s : BitVec 10) (u : BitVec 1)
  /-- IA_SRA (R58). -/
  | iaSra (g : BitVec 4) (s : BitVec 10) (u : BitVec 1)
  /-- IA_ROR (R58). -/
  | iaRor (g : BitVec 4) (s : BitVec 10) (u : BitVec 1)
  /-- IA_MIN (R58). -/
  | iaMin (g : BitVec 4) (s : BitVec 10) (u : BitVec 1)
  /-- IA_MAX (R58). -/
  | iaMax (g : BitVec 4) (s : BitVec 10) (u : BitVec 1)
  /-- IA_MINU (R58). -/
  | iaMinu (g : BitVec 4) (s : BitVec 10) (u : BitVec 1)
  /-- IA_MAXU (R58). -/
  | iaMaxu (g : BitVec 4) (s : BitVec 10) (u : BitVec 1)
  /-- IA_MUL (R58). -/
  | iaMul (g : BitVec 4) (s : BitVec 10) (u : BitVec 1)
  /-- IA_MULU (R58). -/
  | iaMulu (g : BitVec 4) (s : BitVec 10) (u : BitVec 1)
  /-- IA_MULSU (R58). -/
  | iaMulsu (g : BitVec 4) (s : BitVec 10) (u : BitVec 1)
  /-- IA_MULW (R58). -/
  | iaMulw (g : BitVec 4) (s : BitVec 10) (u : BitVec 1)
  /-- IA_EQ (R58). -/
  | iaEq (g : BitVec 4) (s : BitVec 10) (u : BitVec 1)
  /-- IA_LT (R58). -/
  | iaLt (g : BitVec 4) (s : BitVec 10) (u : BitVec 1)
  /-- IA_LTU (R58). -/
  | iaLtu (g : BitVec 4) (s : BitVec 10) (u : BitVec 1)
  /-- IA_TST (R58). -/
  | iaTst (g : BitVec 4) (s : BitVec 10) (u : BitVec 1)
  /-- IA_CLZ (R58). -/
  | iaClz (g : BitVec 4) (s : BitVec 10) (u : BitVec 1)
  /-- IA_CTZ (R58). -/
  | iaCtz (g : BitVec 4) (s : BitVec 10) (u : BitVec 1)
  /-- IA_POPC (R58). -/
  | iaPopc (g : BitVec 4) (s : BitVec 10) (u : BitVec 1)
  /-- IA_BSWAP (R58). -/
  | iaBswap (g : BitVec 4) (s : BitVec 10) (u : BitVec 1)
  /-- IA_SEXT (R58). -/
  | iaSext (g : BitVec 4) (s : BitVec 10) (u : BitVec 1)
  /-- IA_ZEXT (R58). -/
  | iaZext (g : BitVec 4) (s : BitVec 10) (u : BitVec 1)
  /-- IA_BFXU (R58). -/
  | iaBfxu (g : BitVec 4) (s : BitVec 10) (u : BitVec 1)
  /-- IA_BFXS (R58). -/
  | iaBfxs (g : BitVec 4) (s : BitVec 10) (u : BitVec 1)
  /-- IA_CAT (R58). -/
  | iaCat (g : BitVec 4) (s : BitVec 10) (u : BitVec 1)
  /-- IA_LEA (R58). -/
  | iaLea (g : BitVec 4) (s : BitVec 10) (u : BitVec 1) (k : BitVec 2)
  /-- IA_ADDSAT (R58). -/
  | iaAddsat (g : BitVec 4) (s : BitVec 10) (u : BitVec 1)
  /-- IA_SUBSAT (R58). -/
  | iaSubsat (g : BitVec 4) (s : BitVec 10) (u : BitVec 1)
  /-- SF_FADD (R60). -/
  | sfFadd (g : BitVec 4) (s : BitVec 10)
  /-- SF_FSUB (R60). -/
  | sfFsub (g : BitVec 4) (s : BitVec 10)
  /-- SF_FMUL (R60). -/
  | sfFmul (g : BitVec 4) (s : BitVec 10)
  /-- SF_FMIN (R60). -/
  | sfFmin (g : BitVec 4) (s : BitVec 10)
  /-- SF_FMAX (R60). -/
  | sfFmax (g : BitVec 4) (s : BitVec 10)
  /-- SF_FEQ (R60). -/
  | sfFeq (g : BitVec 4) (s : BitVec 10)
  /-- SF_FLT (R60). -/
  | sfFlt (g : BitVec 4) (s : BitVec 10)
  /-- SF_FLE (R60). -/
  | sfFle (g : BitVec 4) (s : BitVec 10)
  /-- SF_FUN (R60). -/
  | sfFun (g : BitVec 4) (s : BitVec 10)
  /-- SF_CVTW (R60). -/
  | sfCvtw (g : BitVec 4) (s : BitVec 10) (m : BitVec 3)
  /-- SF_ICVT (R60). -/
  | sfIcvt (g : BitVec 4) (s : BitVec 10) (m : BitVec 3)
  /-- SF_CVTH (R60). -/
  | sfCvth (g : BitVec 4) (s : BitVec 10) (m : BitVec 3)
  /-- SF_CVTB (R60). -/
  | sfCvtb (g : BitVec 4) (s : BitVec 10) (m : BitVec 3)
  /-- SF_EXTH (R60). -/
  | sfExth (g : BitVec 4) (s : BitVec 10)
  /-- SF_EXTB (R60). -/
  | sfExtb (g : BitVec 4) (s : BitVec 10)
  /-- VA0_FADD (R79). -/
  | va0Fadd (g : BitVec 4) (s : BitVec 10)
  /-- VA0_FSUB (R79). -/
  | va0Fsub (g : BitVec 4) (s : BitVec 10)
  /-- VA0_FMUL (R79). -/
  | va0Fmul (g : BitVec 4) (s : BitVec 10)
  /-- VA0_FMIN (R79). -/
  | va0Fmin (g : BitVec 4) (s : BitVec 10)
  /-- VA0_FMAX (R79). -/
  | va0Fmax (g : BitVec 4) (s : BitVec 10)
  /-- VA0_FABS (R79). -/
  | va0Fabs (g : BitVec 4) (s : BitVec 10)
  /-- VA0_FNEG (R79). -/
  | va0Fneg (g : BitVec 4) (s : BitVec 10)
  /-- VA0_FDOT (R81). -/
  | va0Fdot (g : BitVec 4) (s : BitVec 10)
  /-- VA0_FEQ (R82). -/
  | va0Feq (g : BitVec 4) (s : BitVec 10)
  /-- VA0_FLT (R82). -/
  | va0Flt (g : BitVec 4) (s : BitVec 10)
  /-- VA0_FLE (R82). -/
  | va0Fle (g : BitVec 4) (s : BitVec 10)
  /-- VA0_FUN (R82). -/
  | va0Fun (g : BitVec 4) (s : BitVec 10)
  /-- VA0_ADD (R80). -/
  | va0Add (g : BitVec 4) (s : BitVec 10)
  /-- VA0_SUB (R80). -/
  | va0Sub (g : BitVec 4) (s : BitVec 10)
  /-- VA0_MUL (R80). -/
  | va0Mul (g : BitVec 4) (s : BitVec 10)
  /-- VA0_MIN (R80). -/
  | va0Min (g : BitVec 4) (s : BitVec 10)
  /-- VA0_MAX (R80). -/
  | va0Max (g : BitVec 4) (s : BitVec 10)
  /-- VA0_ABS (R80). -/
  | va0Abs (g : BitVec 4) (s : BitVec 10)
  /-- VA0_ADDSAT (R80). -/
  | va0Addsat (g : BitVec 4) (s : BitVec 10)
  /-- VA0_SUBSAT (R80). -/
  | va0Subsat (g : BitVec 4) (s : BitVec 10)
  /-- VA0_EQ (R82). -/
  | va0Eq (g : BitVec 4) (s : BitVec 10)
  /-- VA0_LT (R82). -/
  | va0Lt (g : BitVec 4) (s : BitVec 10)
  /-- VA0_LE (R82). -/
  | va0Le (g : BitVec 4) (s : BitVec 10)
  /-- VA0_IDOT (R81). -/
  | va0Idot (g : BitVec 4) (s : BitVec 10)
  /-- VA0_SLL (R80). -/
  | va0Sll (g : BitVec 4) (s : BitVec 10)
  /-- VA0_SRL (R80). -/
  | va0Srl (g : BitVec 4) (s : BitVec 10)
  /-- VA0_SRA (R80). -/
  | va0Sra (g : BitVec 4) (s : BitVec 10)
  /-- VA0_AND (R83). -/
  | va0And (g : BitVec 4) (s : BitVec 10)
  /-- VA0_OR (R83). -/
  | va0Or (g : BitVec 4) (s : BitVec 10)
  /-- VA0_XOR (R83). -/
  | va0Xor (g : BitVec 4) (s : BitVec 10)
  /-- VA0_ANDN (R83). -/
  | va0Andn (g : BitVec 4) (s : BitVec 10)
  /-- VA0_CVT (R85). -/
  | va0Cvt (g : BitVec 4) (s : BitVec 10) (m : BitVec 3)
  /-- VA0_FMA (R84). -/
  | va0Fma (g : BitVec 4) (s : BitVec 10) (k : BitVec 3)
  /-- VA0_FMS (R84). -/
  | va0Fms (g : BitVec 4) (s : BitVec 10) (k : BitVec 3)
  /-- VA0_FNMA (R84). -/
  | va0Fnma (g : BitVec 4) (s : BitVec 10) (k : BitVec 3)
  /-- VA0_FCLAMP (R84). -/
  | va0Fclamp (g : BitVec 4) (s : BitVec 10) (k : BitVec 3)
  /-- VA0_ICLAMP (R84). -/
  | va0Iclamp (g : BitVec 4) (s : BitVec 10) (k : BitVec 3)
  /-- VA0_SEL (R83). -/
  | va0Sel (g : BitVec 4) (s : BitVec 10) (m : BitVec 3)
  /-- VA1_FADD (R79). -/
  | va1Fadd (g : BitVec 4) (s : BitVec 10)
  /-- VA1_FSUB (R79). -/
  | va1Fsub (g : BitVec 4) (s : BitVec 10)
  /-- VA1_FMUL (R79). -/
  | va1Fmul (g : BitVec 4) (s : BitVec 10)
  /-- VA1_FMIN (R79). -/
  | va1Fmin (g : BitVec 4) (s : BitVec 10)
  /-- VA1_FMAX (R79). -/
  | va1Fmax (g : BitVec 4) (s : BitVec 10)
  /-- VA1_FABS (R79). -/
  | va1Fabs (g : BitVec 4) (s : BitVec 10)
  /-- VA1_FNEG (R79). -/
  | va1Fneg (g : BitVec 4) (s : BitVec 10)
  /-- VA1_FDOT (R81). -/
  | va1Fdot (g : BitVec 4) (s : BitVec 10)
  /-- VA1_FEQ (R82). -/
  | va1Feq (g : BitVec 4) (s : BitVec 10)
  /-- VA1_FLT (R82). -/
  | va1Flt (g : BitVec 4) (s : BitVec 10)
  /-- VA1_FLE (R82). -/
  | va1Fle (g : BitVec 4) (s : BitVec 10)
  /-- VA1_FUN (R82). -/
  | va1Fun (g : BitVec 4) (s : BitVec 10)
  /-- VA1_ADD (R80). -/
  | va1Add (g : BitVec 4) (s : BitVec 10)
  /-- VA1_SUB (R80). -/
  | va1Sub (g : BitVec 4) (s : BitVec 10)
  /-- VA1_MUL (R80). -/
  | va1Mul (g : BitVec 4) (s : BitVec 10)
  /-- VA1_MIN (R80). -/
  | va1Min (g : BitVec 4) (s : BitVec 10)
  /-- VA1_MAX (R80). -/
  | va1Max (g : BitVec 4) (s : BitVec 10)
  /-- VA1_ABS (R80). -/
  | va1Abs (g : BitVec 4) (s : BitVec 10)
  /-- VA1_ADDSAT (R80). -/
  | va1Addsat (g : BitVec 4) (s : BitVec 10)
  /-- VA1_SUBSAT (R80). -/
  | va1Subsat (g : BitVec 4) (s : BitVec 10)
  /-- VA1_EQ (R82). -/
  | va1Eq (g : BitVec 4) (s : BitVec 10)
  /-- VA1_LT (R82). -/
  | va1Lt (g : BitVec 4) (s : BitVec 10)
  /-- VA1_LE (R82). -/
  | va1Le (g : BitVec 4) (s : BitVec 10)
  /-- VA1_IDOT (R81). -/
  | va1Idot (g : BitVec 4) (s : BitVec 10)
  /-- VA1_SLL (R80). -/
  | va1Sll (g : BitVec 4) (s : BitVec 10)
  /-- VA1_SRL (R80). -/
  | va1Srl (g : BitVec 4) (s : BitVec 10)
  /-- VA1_SRA (R80). -/
  | va1Sra (g : BitVec 4) (s : BitVec 10)
  /-- VA1_AND (R83). -/
  | va1And (g : BitVec 4) (s : BitVec 10)
  /-- VA1_OR (R83). -/
  | va1Or (g : BitVec 4) (s : BitVec 10)
  /-- VA1_XOR (R83). -/
  | va1Xor (g : BitVec 4) (s : BitVec 10)
  /-- VA1_ANDN (R83). -/
  | va1Andn (g : BitVec 4) (s : BitVec 10)
  /-- VA1_CVT (R85). -/
  | va1Cvt (g : BitVec 4) (s : BitVec 10) (m : BitVec 3)
  /-- VA1_FMA (R84). -/
  | va1Fma (g : BitVec 4) (s : BitVec 10) (k : BitVec 3)
  /-- VA1_FMS (R84). -/
  | va1Fms (g : BitVec 4) (s : BitVec 10) (k : BitVec 3)
  /-- VA1_FNMA (R84). -/
  | va1Fnma (g : BitVec 4) (s : BitVec 10) (k : BitVec 3)
  /-- VA1_FCLAMP (R84). -/
  | va1Fclamp (g : BitVec 4) (s : BitVec 10) (k : BitVec 3)
  /-- VA1_ICLAMP (R84). -/
  | va1Iclamp (g : BitVec 4) (s : BitVec 10) (k : BitVec 3)
  /-- VA1_SEL (R83). -/
  | va1Sel (g : BitVec 4) (s : BitVec 10) (m : BitVec 3)
  /-- SFN_EXP2 (R93). -/
  | sfnExp2 (g : BitVec 4) (s : BitVec 10)
  /-- SFN_LOG2 (R93). -/
  | sfnLog2 (g : BitVec 4) (s : BitVec 10)
  /-- SFN_EXP (R93). -/
  | sfnExp (g : BitVec 4) (s : BitVec 10)
  /-- SFN_LN (R93). -/
  | sfnLn (g : BitVec 4) (s : BitVec 10)
  /-- SFN_RCP (R93). -/
  | sfnRcp (g : BitVec 4) (s : BitVec 10)
  /-- SFN_RSQRT (R93). -/
  | sfnRsqrt (g : BitVec 4) (s : BitVec 10)
  /-- SFN_SQRT (R93). -/
  | sfnSqrt (g : BitVec 4) (s : BitVec 10)
  /-- SFN_TANH (R93). -/
  | sfnTanh (g : BitVec 4) (s : BitVec 10)
  /-- SFN_LOGISTIC (R93). -/
  | sfnLogistic (g : BitVec 4) (s : BitVec 10)
  /-- SFN_EXP2_S (R98). -/
  | sfnExp2S (g : BitVec 4) (s : BitVec 10)
  /-- SFN_EXP_S (R98). -/
  | sfnExpS (g : BitVec 4) (s : BitVec 10)
  /-- SFN_RCP_S (R98). -/
  | sfnRcpS (g : BitVec 4) (s : BitVec 10)
  /-- XCH_ROTR (R86). -/
  | xchRotr (g : BitVec 4) (s : BitVec 10)
  /-- XCH_SHFR (R86). -/
  | xchShfr (g : BitVec 4) (s : BitVec 10)
  /-- XCH_XORR (R86). -/
  | xchXorr (g : BitVec 4) (s : BitVec 10)
  /-- XCH_TR16 (R86). -/
  | xchTr16 (g : BitVec 4) (s : BitVec 10)
  /-- XCH_ROTC (R86). -/
  | xchRotc (g : BitVec 4) (s : BitVec 10)
  /-- XCH_SHFC (R86). -/
  | xchShfc (g : BitVec 4) (s : BitVec 10)
  /-- XCH_XORC (R86). -/
  | xchXorc (g : BitVec 4) (s : BitVec 10)
  /-- XCH_BCROW (R86). -/
  | xchBcrow (g : BitVec 4) (s : BitVec 10)
  /-- XCH_BCCOL (R86). -/
  | xchBccol (g : BitVec 4) (s : BitVec 10)
  /-- XCH_BCLANE (R86). -/
  | xchBclane (g : BitVec 4) (s : BitVec 10)
  /-- XCH_PERMR (R86). -/
  | xchPermr (g : BitVec 4) (s : BitVec 10) (k : BitVec 3)
  /-- XCH_PERMC (R86). -/
  | xchPermc (g : BitVec 4) (s : BitVec 10) (k : BitVec 3)
  /-- RED_CSUM_PS (R91). -/
  | redCsumPs (g : BitVec 4) (s : BitVec 10) (n : BitVec 2)
  /-- RED_CMAX_PS (R91). -/
  | redCmaxPs (g : BitVec 4) (s : BitVec 10) (n : BitVec 2)
  /-- RED_RSUM (R88). -/
  | redRsum (g : BitVec 4) (s : BitVec 10)
  /-- RED_RMAX (R88). -/
  | redRmax (g : BitVec 4) (s : BitVec 10)
  /-- RED_RSCAN (R92). -/
  | redRscan (g : BitVec 4) (s : BitVec 10)
  /-- RED_CSCAN (R92). -/
  | redCscan (g : BitVec 4) (s : BitVec 10)
  /-- RED_CSUM (R88). -/
  | redCsum (g : BitVec 4) (s : BitVec 10)
  /-- RED_CMAX (R88). -/
  | redCmax (g : BitVec 4) (s : BitVec 10)
  /-- LS_LD8U (R131). -/
  | lsLd8u (g : BitVec 4) (s : BitVec 10)
  /-- LS_LD16U (R131). -/
  | lsLd16u (g : BitVec 4) (s : BitVec 10)
  /-- LS_LD32U (R131). -/
  | lsLd32u (g : BitVec 4) (s : BitVec 10)
  /-- LS_LD64 (R131). -/
  | lsLd64 (g : BitVec 4) (s : BitVec 10)
  /-- LS_LD8S (R131). -/
  | lsLd8s (g : BitVec 4) (s : BitVec 10)
  /-- LS_LD16S (R131). -/
  | lsLd16s (g : BitVec 4) (s : BitVec 10)
  /-- LS_LD32S (R131). -/
  | lsLd32s (g : BitVec 4) (s : BitVec 10)
  /-- LS_ST8 (R131). -/
  | lsSt8 (g : BitVec 4) (s : BitVec 10)
  /-- LS_ST16 (R131). -/
  | lsSt16 (g : BitVec 4) (s : BitVec 10)
  /-- LS_ST32 (R131). -/
  | lsSt32 (g : BitVec 4) (s : BitVec 10)
  /-- LS_ST64 (R131). -/
  | lsSt64 (g : BitVec 4) (s : BitVec 10)
  /-- LS_VLD (R131). -/
  | lsVld (g : BitVec 4) (s : BitVec 10)
  /-- LS_VST (R131). -/
  | lsVst (g : BitVec 4) (s : BitVec 10)
  /-- LS_BERTH (R135). -/
  | lsBerth (g : BitVec 4) (s : BitVec 10)
  /-- STR_BINDF (R149). -/
  | strBindf (g : BitVec 4) (s : BitVec 10) (n : BitVec 3)
  /-- STR_BINDD (R149). -/
  | strBindd (g : BitVec 4) (s : BitVec 10) (n : BitVec 2)
  /-- MX_PUSH (R158). -/
  | mxPush (g : BitVec 4) (s : BitVec 10)
  /-- MX_SHIFT (R158). -/
  | mxShift (g : BitVec 4) (s : BitVec 10)
  /-- MX_ACC (R159). -/
  | mxAcc (g : BitVec 4) (s : BitVec 10)
  /-- MX_PACC (R159). -/
  | mxPacc (g : BitVec 4) (s : BitVec 10)
  /-- MX_SACC (R161). -/
  | mxSacc (g : BitVec 4) (s : BitVec 10)
  /-- MX_DRAIN (R163). -/
  | mxDrain (g : BitVec 4) (s : BitVec 10)
  /-- MX_HPSET (R162). -/
  | mxHpset (g : BitVec 4) (s : BitVec 10)
  /-- MX_RMASK (R162). -/
  | mxRmask (g : BitVec 4) (s : BitVec 10)
  /-- MX_CMASK (R162). -/
  | mxCmask (g : BitVec 4) (s : BitVec 10)
  /-- MX_ACCXLD (R164). -/
  | mxAccxld (g : BitVec 4) (s : BitVec 10)
  /-- MX_ACCXST (R164). -/
  | mxAccxst (g : BitVec 4) (s : BitVec 10)
  /-- MX_MDQ (R161). -/
  | mxMdq (g : BitVec 4) (s : BitVec 10)
  /-- WR_CFG (R232). -/
  | wrCfg (g : BitVec 4) (s : BitVec 10)
  /-- WR_LOAD (R233). -/
  | wrLoad (g : BitVec 4) (s : BitVec 10)
  /-- WR_BEAT (R236). -/
  | wrBeat (g : BitVec 4) (s : BitVec 10)
  /-- WR_LEAF (R237). -/
  | wrLeaf (g : BitVec 4) (s : BitVec 10)
  /-- SYN_LD (R200). -/
  | synLd (g : BitVec 4) (s : BitVec 10)
  /-- SYN_ST (R200). -/
  | synSt (g : BitVec 4) (s : BitVec 10)
  /-- SYN_ADD (R200). -/
  | synAdd (g : BitVec 4) (s : BitVec 10)
  /-- SYN_FADD (R201). -/
  | synFadd (g : BitVec 4) (s : BitVec 10)
  /-- SYN_MIN (R200). -/
  | synMin (g : BitVec 4) (s : BitVec 10)
  /-- SYN_MAX (R200). -/
  | synMax (g : BitVec 4) (s : BitVec 10)
  /-- SYN_MINU (R200). -/
  | synMinu (g : BitVec 4) (s : BitVec 10)
  /-- SYN_MAXU (R200). -/
  | synMaxu (g : BitVec 4) (s : BitVec 10)
  /-- SYN_AND (R200). -/
  | synAnd (g : BitVec 4) (s : BitVec 10)
  /-- SYN_OR (R200). -/
  | synOr (g : BitVec 4) (s : BitVec 10)
  /-- SYN_XOR (R200). -/
  | synXor (g : BitVec 4) (s : BitVec 10)
  /-- SYN_SWAP (R200). -/
  | synSwap (g : BitVec 4) (s : BitVec 10)
  /-- SYN_ARRIVE (R204). -/
  | synArrive (g : BitVec 4) (s : BitVec 10)
  /-- SYN_EXPECT (R204). -/
  | synExpect (g : BitVec 4) (s : BitVec 10)
  /-- SYN_WAIT (R205). -/
  | synWait (g : BitVec 4) (s : BitVec 10)
  /-- SYN_TWAIT (R205). -/
  | synTwait (g : BitVec 4) (s : BitVec 10)
  /-- SYN_CAS (R200). -/
  | synCas (g : BitVec 4) (s : BitVec 10) (k : BitVec 3)
  /-- SYN_CWAIT (R209). -/
  | synCwait (g : BitVec 4) (s : BitVec 10)
  /-- SYN_CINC (R207). -/
  | synCinc (g : BitVec 4) (s : BitVec 10)
  /-- SYN_ARM (R208). -/
  | synArm (g : BitVec 4) (s : BitVec 10)
  /-- SYN_CRESET (R210). -/
  | synCreset (g : BitVec 4) (s : BitVec 10)
  /-- SYN_CRESET_F (R210). -/
  | synCresetF (g : BitVec 4) (s : BitVec 10)
  /-- SYN_BATCH (R211). -/
  | synBatch (g : BitVec 4) (s : BitVec 10)
  /-- SYN_SEND (R221). -/
  | synSend (g : BitVec 4) (s : BitVec 10)
  /-- SYN_RECV (R223). -/
  | synRecv (g : BitVec 4) (s : BitVec 10)
  /-- SYN_PSET (R214). -/
  | synPset (g : BitVec 4) (s : BitVec 10)
  /-- SYN_COLL (R252). -/
  | synColl (g : BitVec 4) (s : BitVec 10)
  /-- ENG_TLD (R140). -/
  | engTld (g : BitVec 4) (s : BitVec 10)
  /-- ENG_TST (R140). -/
  | engTst (g : BitVec 4) (s : BitVec 10)
  /-- ENG_HLD (R141). -/
  | engHld (g : BitVec 4) (s : BitVec 10)
  /-- ENG_WAIT (R146). -/
  | engWait (g : BitVec 4) (s : BitVec 10)
  /-- ENG_TCVT (R147). -/
  | engTcvt (g : BitVec 4) (s : BitVec 10) (m : BitVec 3)
  /-- ENG_AQ (R261). -/
  | engAq (g : BitVec 4) (s : BitVec 10)
  /-- ENG_PEERWR (R270). -/
  | engPeerwr (g : BitVec 4) (s : BitVec 10)
  /-- ENG_PEERRD (R270). -/
  | engPeerrd (g : BitVec 4) (s : BitVec 10)
  /-- ENG_NM_FUSE (R276). -/
  | engNmFuse (g : BitVec 4) (s : BitVec 10)
  /-- ENG_NM_SADD (R276). -/
  | engNmSadd (g : BitVec 4) (s : BitVec 10)
  /-- ENG_NM_RED (R277). -/
  | engNmRed (g : BitVec 4) (s : BitVec 10)
  /-- ENG_NM_FILL (R276). -/
  | engNmFill (g : BitVec 4) (s : BitVec 10)
  /-- ENG_NM_COPY (R276). -/
  | engNmCopy (g : BitVec 4) (s : BitVec 10)
  /-- CTL_JMP (R64). -/
  | ctlJmp (g : BitVec 4) (s : BitVec 10)
  /-- CTL_BR (R64). -/
  | ctlBr (g : BitVec 4) (s : BitVec 10)
  /-- CTL_CALL (R64). -/
  | ctlCall (g : BitVec 4) (s : BitVec 10)
  /-- CTL_CALLR (R64). -/
  | ctlCallr (g : BitVec 4) (s : BitVec 10)
  /-- CTL_END (R72). -/
  | ctlEnd (g : BitVec 4) (s : BitVec 10)
  /-- CTL_SYS (R71). -/
  | ctlSys (g : BitVec 4) (s : BitVec 10)
  /-- CTL_BRK (R71). -/
  | ctlBrk (g : BitVec 4) (s : BitVec 10)
  /-- CTL_IFENCE (R73). -/
  | ctlIfence (g : BitVec 4) (s : BitVec 10)
  /-- CTL_LOOP (R66). -/
  | ctlLoop (g : BitVec 4) (s : BitVec 10) (l : BitVec 2)
  /-- CTL_LOOPEND (R67). -/
  | ctlLoopend (g : BitVec 4) (s : BitVec 10) (l : BitVec 2)
  /-- CTL_RETAG (R69). -/
  | ctlRetag (g : BitVec 4) (s : BitVec 10)
  /-- CTL_RDSR (R70). -/
  | ctlRdsr (g : BitVec 4) (s : BitVec 10)
  /-- CTL_WRSR (R70). -/
  | ctlWrsr (g : BitVec 4) (s : BitVec 10)
  /-- CTL_QMARK (R174). -/
  | ctlQmark (g : BitVec 4) (s : BitVec 10)
  /-- CTL_FENCE (R175). -/
  | ctlFence (g : BitVec 4) (s : BitVec 10) (sc : BitVec 4)
  /-- CTL_QUIESCE (R331). -/
  | ctlQuiesce (g : BitVec 4) (s : BitVec 10)
  /-- BUNDLE_FETCH (R65). -/
  | bundleFetch (c : Nat) (addr : Word)
  /-- RESULT_LANDING (R16). -/
  | resultLanding (c : Nat)
  /-- BERTH_REPLY (R136). -/
  | berthReply (c fid : Nat)
  /-- BERTH_LANDING (R135). -/
  | berthLanding (c : Nat)
  /-- ENDPOINT_TIMEOUT (R217). -/
  | endpointTimeout (c : Nat)
  /-- DEADLINE (R288). -/
  | deadline (c : Nat)
  /-- CHECKPOINT_OVERDUE (R319). -/
  | checkpointOverdue (c : Nat)
  /-- ENGINE_SECTOR_RETURN (R143). -/
  | engineSectorReturn (core id sec : Nat)
  /-- SECTOR_TIMEOUT (R144). -/
  | sectorTimeout (core id sec : Nat)
  /-- WHARF_OPERATION_PERFORM (R200). -/
  | wharfOperationPerform (die id : Nat)
  /-- WHARF_REPLY (R198). -/
  | wharfReply (c fid : Nat)
  /-- TWAIT_TIMEOUT (R205). -/
  | twaitTimeout (die id : Nat)
  /-- BATCH_RECORD_PERFORM (R212). -/
  | batchRecordPerform (core id rec : Nat)
  /-- MESSAGE_ARRIVAL (R225). -/
  | messageArrival (msg : Msg)
  /-- MESSAGE_ACKNOWLEDGEMENT (R227). -/
  | messageAcknowledgement (id : Nat)
  /-- RECEIVE_LANDING (R223). -/
  | receiveLanding (c : Nat)
  /-- FLIT_RESEND (R228). -/
  | flitResend (port : Nat)
  /-- LINK_DOWN (R228). -/
  | linkDown (port : Nat)
  /-- PEER_TRANSFER_ARRIVAL (R187). -/
  | peerTransferArrival (x : PeerXfer)
  /-- PACKET_HOP (R248). -/
  | packetHop (pkt : Packet)
  /-- LKEMIT (R245). -/
  | lkemit (lk hart : Nat) (addr : Word) (rec : BitVec 640)
  /-- LKCMDTAIL (R242). -/
  | lkcmdtail (lk hart : Nat) (val : Word)
  /-- HART_EXCEPTION (R243). -/
  | hartException (lk hart : Nat) (mtvecZero : Bool)
  /-- AQUEDUCT_BLOCK_ARRIVAL (R264). -/
  | aqueductBlockArrival (pkt : Packet)
  /-- NEAR_MEMORY_EXECUTE (R276). -/
  | nearMemoryExecute (core id : Nat)
  /-- PAGE_EXPANSION (R339). -/
  | pageExpansion (spid : Nat) (va : Word)
  /-- PAGE_COMPRESSION (R340). -/
  | pageCompression (spid : Nat) (va : Word)
  /-- PAGE_MIGRATION (R341). -/
  | pageMigration (spid : Nat) (va frame : Word)
  /-- PAGE_REQUEST (R338). -/
  | pageRequest (master spid : Nat) (va : Word)
  /-- PAGE_MAPPED (R338). -/
  | pageMapped (spid : Nat) (va pte : Word)
  /-- PAGE_UNMAPPABLE (R338). -/
  | pageUnmappable (spid : Nat) (va : Word)
  /-- TRAP_RETURN (R316). -/
  | trapReturn (c : Nat)
  /-- TRAP_END (R316). -/
  | trapEnd (c : Nat)
  /-- INTERRUPT (R317). -/
  | interrupt (c : Nat)
  /-- PREEMPTION_REQUEST (R320). -/
  | preemptionRequest (c : Nat)
  /-- CONTEXT_HALT (R320). -/
  | contextHalt (c : Nat)
  /-- CONTEXT_SAVE (R322). -/
  | contextSave (c : Nat)
  /-- CONTEXT_RESTORE (R330). -/
  | contextRestore (c : Nat)
  /-- LAUNCH_ACCEPTANCE (R292). -/
  | launchAcceptance
  /-- PHASE_BOUNDARY (R294). -/
  | phaseBoundary (launch : Word)
  /-- TASK_BINDING (R302). -/
  | taskBinding (die : Nat)
  /-- STAGING_COPY (R286). -/
  | stagingCopy (c : Nat)
  /-- TASK_START (R303). -/
  | taskStart (c : Nat)
  /-- TASK_RETIREMENT (R285). -/
  | taskRetirement (launch : Word) (task : Nat)
  /-- RUN_LIMIT (R304). -/
  | runLimit (core : Nat)
  /-- LAUNCH_COMPLETION (R299). -/
  | launchCompletion (launch : Word)
  /-- QUIESCE_PERFORMED (R348). -/
  | quiescePerformed (spid : Nat)
  /-- QUIESCE (R372). -/
  | quiesce (val : Word)
  /-- SHOOT (R337). -/
  | shoot (val : Word)
  /-- SACK (R364). -/
  | sack (val : Word)
  /-- POOLPUSH (R376). -/
  | poolpush (val : Word)
  /-- POOLPOP (R376). -/
  | poolpop (kernel : Bool)
  /-- SLOTVAL (R376). -/
  | slotval (val : Word)
  /-- ATVAL (R376). -/
  | atval (val : Word)
  /-- DBGCTL (R375). -/
  | dbgctl (val : Word)
  /-- MANAGEMENT_REGISTER_WRITE (R372). -/
  | managementRegisterWrite (kernel : Bool) (off val : Word)
  /-- RELEASE (R374). -/
  | release (htag : Word)
  /-- CANCEL (R374). -/
  | cancel (htag : Word)
  /-- STATEMENT_REQUEST (R374). -/
  | statementRequest
  /-- ATTESTATION_REPORT (R370). -/
  | attestationReport (launch addr : Word) (nonce : BitVec 256)
  /-- PRESENT_STATEMENT (R368). -/
  | presentStatement (addr : Word)
  /-- IMPORT_STATEMENT (R369). -/
  | importStatement (addr : Word)
  /-- DBG_INTERRUPT (R375). -/
  | dbgInterrupt
  /-- DBG_SAVE (R375). -/
  | dbgSave
  /-- DBG_RESUME (R375). -/
  | dbgResume
  /-- DBG_RESTORE (R375). -/
  | dbgRestore
  /-- DBG_END (R375). -/
  | dbgEnd
  /-- POWER_ON_RESET (R367). -/
  | powerOnReset
  /-- ERROR_DETECTED (R350). -/
  | errorDetected (source : BitVec 8) (uncorrectable : Bool) (unit : Nat) (addr : Word)
  /-- PATROL_SCRUB (R350). -/
  | patrolScrub
  /-- MACHINE_CHECK (R355). -/
  | machineCheck (master : Nat)
  /-- EDGE_FAILURE (R356). -/
  | edgeFailure (pair : BitVec 4)
  /-- SELF_REFRESH_ENTRY (R357). -/
  | selfRefreshEntry (stack : Nat)
  /-- SELF_REFRESH_EXIT (R357). -/
  | selfRefreshExit (stack : Nat)
  /-- COOLANT_FLOW_LOW (R380). -/
  | coolantFlowLow
  /-- OVER_TEMPERATURE (R380). -/
  | overTemperature (junction : Word) (other : Word × Word)
  /-- POWER_CAP_EXCEEDED (R380). -/
  | powerCapExceeded (watts : Nat)
  /-- UALINK_ATOMIC_REQUEST (R378). -/
  | ualinkAtomicRequest (port : Nat)
  /-- HOST_LINK_WRITE (R188). -/
  | hostLinkWrite (storage : Bool) (spid : Nat) (addr : Word) (data : LinkData)
  /-- SLOT_GRANT (R344). -/
  | slotGrant (channel : Nat) (waiting : BitVec 16)
  /-- POWER_LOSS (R364). -/
  | powerLoss
  /-- ORDERLY_SHUTDOWN (R366). -/
  | orderlyShutdown
  /-- MIGRATION_OUT (R366). -/
  | migrationOut
  deriving DecidableEq, Repr

end Sys2Proof
end

