-- ==== Sys2Proof/Decode.lean ====
section
/-! DEFINITION. Decoding of one 24-bit slot (R25, R29 to R33) from the rows of the operation table, total, refusing by
name what no row defines; and the encoder written from the same tables. -/

namespace Sys2Proof

/-- Why a slot is no move of the part: both are ILLEGAL_ENCODING of class 2 (R38). -/
inductive DecodeError where
  /-- The SOURCE code is illegal or reserved (R29, R31). -/
  | illegalSource
  /-- The DEST code is illegal or reserved (R32, R33). -/
  | illegalDest
  deriving DecidableEq, Repr

/-- A source code that R29 to R31 define. -/
def legalSrc (src : BitVec 10) : Bool :=
  let n := src.toNat
  decide (n < 0x07C) ||
  (decide (0x080 ≤ n) && decide (n < 0x09E) &&
    !([0x085, 0x08B, 0x08D, 0x08F, 0x091, 0x092, 0x093, 0x095, 0x099, 0x09B, 0x09D].contains n)) ||
  (decide (0x0C0 ≤ n) && decide (n < 0x0C8)) || decide (0x200 ≤ n)

/-- A destination code of R32 that is no trigger port. -/
def legalDst (dst : BitVec 10) : Bool :=
  let n := dst.toNat
  decide (n < 0x060) || (decide (0x061 ≤ n) && decide (n < 0x074)) || (decide (0x078 ≤ n) && decide (n < 0x07C)) ||
  (decide (0x080 ≤ n) && decide (n < 0x09E) && n != 0x08B && n != 0x08F)

/-- A row of the operation table: the bits of DEST it fixes, their values, and the instruction its fields make; a row
makes none for a reserved field value. -/
structure Row where
  mask : Nat
  pat : Nat
  make : BitVec 4 → BitVec 10 → Nat → Option Instr

/-- The trigger ports of the ia rows (R33). -/
def rowsIa : List Row := [
  ⟨0x3BF, 0x100, fun g s d => some (.iaAdd g s (BitVec.ofNat 1 (d >>> 6)))⟩,
  ⟨0x3BF, 0x101, fun g s d => some (.iaSub g s (BitVec.ofNat 1 (d >>> 6)))⟩,
  ⟨0x3BF, 0x102, fun g s d => some (.iaAddw g s (BitVec.ofNat 1 (d >>> 6)))⟩,
  ⟨0x3BF, 0x103, fun g s d => some (.iaSubw g s (BitVec.ofNat 1 (d >>> 6)))⟩,
  ⟨0x3BF, 0x104, fun g s d => some (.iaAnd g s (BitVec.ofNat 1 (d >>> 6)))⟩,
  ⟨0x3BF, 0x105, fun g s d => some (.iaOr g s (BitVec.ofNat 1 (d >>> 6)))⟩,
  ⟨0x3BF, 0x106, fun g s d => some (.iaXor g s (BitVec.ofNat 1 (d >>> 6)))⟩,
  ⟨0x3BF, 0x107, fun g s d => some (.iaAndn g s (BitVec.ofNat 1 (d >>> 6)))⟩,
  ⟨0x3BF, 0x108, fun g s d => some (.iaSll g s (BitVec.ofNat 1 (d >>> 6)))⟩,
  ⟨0x3BF, 0x109, fun g s d => some (.iaSrl g s (BitVec.ofNat 1 (d >>> 6)))⟩,
  ⟨0x3BF, 0x10A, fun g s d => some (.iaSra g s (BitVec.ofNat 1 (d >>> 6)))⟩,
  ⟨0x3BF, 0x10B, fun g s d => some (.iaRor g s (BitVec.ofNat 1 (d >>> 6)))⟩,
  ⟨0x3BF, 0x10C, fun g s d => some (.iaMin g s (BitVec.ofNat 1 (d >>> 6)))⟩,
  ⟨0x3BF, 0x10D, fun g s d => some (.iaMax g s (BitVec.ofNat 1 (d >>> 6)))⟩,
  ⟨0x3BF, 0x10E, fun g s d => some (.iaMinu g s (BitVec.ofNat 1 (d >>> 6)))⟩,
  ⟨0x3BF, 0x10F, fun g s d => some (.iaMaxu g s (BitVec.ofNat 1 (d >>> 6)))⟩,
  ⟨0x3BF, 0x110, fun g s d => some (.iaMul g s (BitVec.ofNat 1 (d >>> 6)))⟩,
  ⟨0x3BF, 0x111, fun g s d => some (.iaMulu g s (BitVec.ofNat 1 (d >>> 6)))⟩,
  ⟨0x3BF, 0x112, fun g s d => some (.iaMulsu g s (BitVec.ofNat 1 (d >>> 6)))⟩,
  ⟨0x3BF, 0x113, fun g s d => some (.iaMulw g s (BitVec.ofNat 1 (d >>> 6)))⟩,
  ⟨0x3BF, 0x118, fun g s d => some (.iaEq g s (BitVec.ofNat 1 (d >>> 6)))⟩,
  ⟨0x3BF, 0x119, fun g s d => some (.iaLt g s (BitVec.ofNat 1 (d >>> 6)))⟩,
  ⟨0x3BF, 0x11A, fun g s d => some (.iaLtu g s (BitVec.ofNat 1 (d >>> 6)))⟩,
  ⟨0x3BF, 0x11B, fun g s d => some (.iaTst g s (BitVec.ofNat 1 (d >>> 6)))⟩,
  ⟨0x3BF, 0x120, fun g s d => some (.iaClz g s (BitVec.ofNat 1 (d >>> 6)))⟩,
  ⟨0x3BF, 0x121, fun g s d => some (.iaCtz g s (BitVec.ofNat 1 (d >>> 6)))⟩,
  ⟨0x3BF, 0x122, fun g s d => some (.iaPopc g s (BitVec.ofNat 1 (d >>> 6)))⟩,
  ⟨0x3BF, 0x123, fun g s d => some (.iaBswap g s (BitVec.ofNat 1 (d >>> 6)))⟩,
  ⟨0x3BF, 0x124, fun g s d => some (.iaSext g s (BitVec.ofNat 1 (d >>> 6)))⟩,
  ⟨0x3BF, 0x125, fun g s d => some (.iaZext g s (BitVec.ofNat 1 (d >>> 6)))⟩,
  ⟨0x3BF, 0x126, fun g s d => some (.iaBfxu g s (BitVec.ofNat 1 (d >>> 6)))⟩,
  ⟨0x3BF, 0x127, fun g s d => some (.iaBfxs g s (BitVec.ofNat 1 (d >>> 6)))⟩,
  ⟨0x3BF, 0x128, fun g s d => some (.iaCat g s (BitVec.ofNat 1 (d >>> 6)))⟩,
  ⟨0x3BC, 0x130, fun g s d => some (.iaLea g s (BitVec.ofNat 1 (d >>> 6)) (BitVec.ofNat 2 d))⟩,
  ⟨0x3BF, 0x134, fun g s d => some (.iaAddsat g s (BitVec.ofNat 1 (d >>> 6)))⟩,
  ⟨0x3BF, 0x135, fun g s d => some (.iaSubsat g s (BitVec.ofNat 1 (d >>> 6)))⟩]

/-- The trigger ports of the sf rows (R33). -/
def rowsSf : List Row := [
  ⟨0x3FF, 0x180, fun g s _ => some (.sfFadd g s)⟩,
  ⟨0x3FF, 0x181, fun g s _ => some (.sfFsub g s)⟩,
  ⟨0x3FF, 0x182, fun g s _ => some (.sfFmul g s)⟩,
  ⟨0x3FF, 0x183, fun g s _ => some (.sfFmin g s)⟩,
  ⟨0x3FF, 0x184, fun g s _ => some (.sfFmax g s)⟩,
  ⟨0x3FF, 0x188, fun g s _ => some (.sfFeq g s)⟩,
  ⟨0x3FF, 0x189, fun g s _ => some (.sfFlt g s)⟩,
  ⟨0x3FF, 0x18A, fun g s _ => some (.sfFle g s)⟩,
  ⟨0x3FF, 0x18B, fun g s _ => some (.sfFun g s)⟩,
  ⟨0x3F8, 0x190, fun g s d => some (.sfCvtw g s (BitVec.ofNat 3 d))⟩,
  ⟨0x3F8, 0x198, fun g s d => some (.sfIcvt g s (BitVec.ofNat 3 d))⟩,
  ⟨0x3F8, 0x1A0, fun g s d => some (.sfCvth g s (BitVec.ofNat 3 d))⟩,
  ⟨0x3F8, 0x1A8, fun g s d => some (.sfCvtb g s (BitVec.ofNat 3 d))⟩,
  ⟨0x3FF, 0x1B0, fun g s _ => some (.sfExth g s)⟩,
  ⟨0x3FF, 0x1B1, fun g s _ => some (.sfExtb g s)⟩]

/-- The trigger ports of the va0 rows (R33). -/
def rowsVa0 : List Row := [
  ⟨0x3FF, 0x1C0, fun g s _ => some (.va0Fadd g s)⟩,
  ⟨0x3FF, 0x1C1, fun g s _ => some (.va0Fsub g s)⟩,
  ⟨0x3FF, 0x1C2, fun g s _ => some (.va0Fmul g s)⟩,
  ⟨0x3FF, 0x1C3, fun g s _ => some (.va0Fmin g s)⟩,
  ⟨0x3FF, 0x1C4, fun g s _ => some (.va0Fmax g s)⟩,
  ⟨0x3FF, 0x1C5, fun g s _ => some (.va0Fabs g s)⟩,
  ⟨0x3FF, 0x1C6, fun g s _ => some (.va0Fneg g s)⟩,
  ⟨0x3FF, 0x1C7, fun g s _ => some (.va0Fdot g s)⟩,
  ⟨0x3FF, 0x1C8, fun g s _ => some (.va0Feq g s)⟩,
  ⟨0x3FF, 0x1C9, fun g s _ => some (.va0Flt g s)⟩,
  ⟨0x3FF, 0x1CA, fun g s _ => some (.va0Fle g s)⟩,
  ⟨0x3FF, 0x1CB, fun g s _ => some (.va0Fun g s)⟩,
  ⟨0x3FF, 0x1D0, fun g s _ => some (.va0Add g s)⟩,
  ⟨0x3FF, 0x1D1, fun g s _ => some (.va0Sub g s)⟩,
  ⟨0x3FF, 0x1D2, fun g s _ => some (.va0Mul g s)⟩,
  ⟨0x3FF, 0x1D3, fun g s _ => some (.va0Min g s)⟩,
  ⟨0x3FF, 0x1D4, fun g s _ => some (.va0Max g s)⟩,
  ⟨0x3FF, 0x1D5, fun g s _ => some (.va0Abs g s)⟩,
  ⟨0x3FF, 0x1D6, fun g s _ => some (.va0Addsat g s)⟩,
  ⟨0x3FF, 0x1D7, fun g s _ => some (.va0Subsat g s)⟩,
  ⟨0x3FF, 0x1D8, fun g s _ => some (.va0Eq g s)⟩,
  ⟨0x3FF, 0x1D9, fun g s _ => some (.va0Lt g s)⟩,
  ⟨0x3FF, 0x1DA, fun g s _ => some (.va0Le g s)⟩,
  ⟨0x3FF, 0x1DB, fun g s _ => some (.va0Idot g s)⟩,
  ⟨0x3FF, 0x1DC, fun g s _ => some (.va0Sll g s)⟩,
  ⟨0x3FF, 0x1DD, fun g s _ => some (.va0Srl g s)⟩,
  ⟨0x3FF, 0x1DE, fun g s _ => some (.va0Sra g s)⟩,
  ⟨0x3FF, 0x1E0, fun g s _ => some (.va0And g s)⟩,
  ⟨0x3FF, 0x1E1, fun g s _ => some (.va0Or g s)⟩,
  ⟨0x3FF, 0x1E2, fun g s _ => some (.va0Xor g s)⟩,
  ⟨0x3FF, 0x1E3, fun g s _ => some (.va0Andn g s)⟩,
  ⟨0x3F8, 0x1E8, fun g s d => some (.va0Cvt g s (BitVec.ofNat 3 d))⟩,
  ⟨0x3F8, 0x1F0, fun g s d => some (.va0Fma g s (BitVec.ofNat 3 d))⟩,
  ⟨0x3F8, 0x1F8, fun g s d => some (.va0Fms g s (BitVec.ofNat 3 d))⟩,
  ⟨0x3F8, 0x200, fun g s d => some (.va0Fnma g s (BitVec.ofNat 3 d))⟩,
  ⟨0x3F8, 0x208, fun g s d => some (.va0Fclamp g s (BitVec.ofNat 3 d))⟩,
  ⟨0x3F8, 0x210, fun g s d => some (.va0Iclamp g s (BitVec.ofNat 3 d))⟩,
  ⟨0x3F8, 0x218, fun g s d => some (.va0Sel g s (BitVec.ofNat 3 d))⟩]

/-- The trigger ports of the va1 rows (R33). -/
def rowsVa1 : List Row := [
  ⟨0x3FF, 0x220, fun g s _ => some (.va1Fadd g s)⟩,
  ⟨0x3FF, 0x221, fun g s _ => some (.va1Fsub g s)⟩,
  ⟨0x3FF, 0x222, fun g s _ => some (.va1Fmul g s)⟩,
  ⟨0x3FF, 0x223, fun g s _ => some (.va1Fmin g s)⟩,
  ⟨0x3FF, 0x224, fun g s _ => some (.va1Fmax g s)⟩,
  ⟨0x3FF, 0x225, fun g s _ => some (.va1Fabs g s)⟩,
  ⟨0x3FF, 0x226, fun g s _ => some (.va1Fneg g s)⟩,
  ⟨0x3FF, 0x227, fun g s _ => some (.va1Fdot g s)⟩,
  ⟨0x3FF, 0x228, fun g s _ => some (.va1Feq g s)⟩,
  ⟨0x3FF, 0x229, fun g s _ => some (.va1Flt g s)⟩,
  ⟨0x3FF, 0x22A, fun g s _ => some (.va1Fle g s)⟩,
  ⟨0x3FF, 0x22B, fun g s _ => some (.va1Fun g s)⟩,
  ⟨0x3FF, 0x230, fun g s _ => some (.va1Add g s)⟩,
  ⟨0x3FF, 0x231, fun g s _ => some (.va1Sub g s)⟩,
  ⟨0x3FF, 0x232, fun g s _ => some (.va1Mul g s)⟩,
  ⟨0x3FF, 0x233, fun g s _ => some (.va1Min g s)⟩,
  ⟨0x3FF, 0x234, fun g s _ => some (.va1Max g s)⟩,
  ⟨0x3FF, 0x235, fun g s _ => some (.va1Abs g s)⟩,
  ⟨0x3FF, 0x236, fun g s _ => some (.va1Addsat g s)⟩,
  ⟨0x3FF, 0x237, fun g s _ => some (.va1Subsat g s)⟩,
  ⟨0x3FF, 0x238, fun g s _ => some (.va1Eq g s)⟩,
  ⟨0x3FF, 0x239, fun g s _ => some (.va1Lt g s)⟩,
  ⟨0x3FF, 0x23A, fun g s _ => some (.va1Le g s)⟩,
  ⟨0x3FF, 0x23B, fun g s _ => some (.va1Idot g s)⟩,
  ⟨0x3FF, 0x23C, fun g s _ => some (.va1Sll g s)⟩,
  ⟨0x3FF, 0x23D, fun g s _ => some (.va1Srl g s)⟩,
  ⟨0x3FF, 0x23E, fun g s _ => some (.va1Sra g s)⟩,
  ⟨0x3FF, 0x240, fun g s _ => some (.va1And g s)⟩,
  ⟨0x3FF, 0x241, fun g s _ => some (.va1Or g s)⟩,
  ⟨0x3FF, 0x242, fun g s _ => some (.va1Xor g s)⟩,
  ⟨0x3FF, 0x243, fun g s _ => some (.va1Andn g s)⟩,
  ⟨0x3F8, 0x248, fun g s d => some (.va1Cvt g s (BitVec.ofNat 3 d))⟩,
  ⟨0x3F8, 0x250, fun g s d => some (.va1Fma g s (BitVec.ofNat 3 d))⟩,
  ⟨0x3F8, 0x258, fun g s d => some (.va1Fms g s (BitVec.ofNat 3 d))⟩,
  ⟨0x3F8, 0x260, fun g s d => some (.va1Fnma g s (BitVec.ofNat 3 d))⟩,
  ⟨0x3F8, 0x268, fun g s d => some (.va1Fclamp g s (BitVec.ofNat 3 d))⟩,
  ⟨0x3F8, 0x270, fun g s d => some (.va1Iclamp g s (BitVec.ofNat 3 d))⟩,
  ⟨0x3F8, 0x278, fun g s d => some (.va1Sel g s (BitVec.ofNat 3 d))⟩]

/-- The trigger ports of the sfn rows (R33). -/
def rowsSfn : List Row := [
  ⟨0x3FF, 0x280, fun g s _ => some (.sfnExp2 g s)⟩,
  ⟨0x3FF, 0x281, fun g s _ => some (.sfnLog2 g s)⟩,
  ⟨0x3FF, 0x282, fun g s _ => some (.sfnExp g s)⟩,
  ⟨0x3FF, 0x283, fun g s _ => some (.sfnLn g s)⟩,
  ⟨0x3FF, 0x284, fun g s _ => some (.sfnRcp g s)⟩,
  ⟨0x3FF, 0x285, fun g s _ => some (.sfnRsqrt g s)⟩,
  ⟨0x3FF, 0x286, fun g s _ => some (.sfnSqrt g s)⟩,
  ⟨0x3FF, 0x287, fun g s _ => some (.sfnTanh g s)⟩,
  ⟨0x3FF, 0x288, fun g s _ => some (.sfnLogistic g s)⟩,
  ⟨0x3FF, 0x289, fun g s _ => some (.sfnExp2S g s)⟩,
  ⟨0x3FF, 0x28A, fun g s _ => some (.sfnExpS g s)⟩,
  ⟨0x3FF, 0x28B, fun g s _ => some (.sfnRcpS g s)⟩]

/-- The trigger ports of the xch rows (R33). -/
def rowsXch : List Row := [
  ⟨0x3FF, 0x290, fun g s _ => some (.xchRotr g s)⟩,
  ⟨0x3FF, 0x291, fun g s _ => some (.xchShfr g s)⟩,
  ⟨0x3FF, 0x292, fun g s _ => some (.xchXorr g s)⟩,
  ⟨0x3FF, 0x293, fun g s _ => some (.xchTr16 g s)⟩,
  ⟨0x3FF, 0x294, fun g s _ => some (.xchRotc g s)⟩,
  ⟨0x3FF, 0x295, fun g s _ => some (.xchShfc g s)⟩,
  ⟨0x3FF, 0x296, fun g s _ => some (.xchXorc g s)⟩,
  ⟨0x3FF, 0x297, fun g s _ => some (.xchBcrow g s)⟩,
  ⟨0x3FF, 0x298, fun g s _ => some (.xchBccol g s)⟩,
  ⟨0x3FF, 0x299, fun g s _ => some (.xchBclane g s)⟩,
  ⟨0x3F8, 0x2A0, fun g s d => some (.xchPermr g s (BitVec.ofNat 3 d))⟩,
  ⟨0x3F8, 0x2A8, fun g s d => some (.xchPermc g s (BitVec.ofNat 3 d))⟩]

/-- The trigger ports of the red rows (R33). -/
def rowsRed : List Row := [
  ⟨0x3FC, 0x2B0, fun g s d => some (.redCsumPs g s (BitVec.ofNat 2 d))⟩,
  ⟨0x3FC, 0x2B4, fun g s d => some (.redCmaxPs g s (BitVec.ofNat 2 d))⟩,
  ⟨0x3FF, 0x2B8, fun g s _ => some (.redRsum g s)⟩,
  ⟨0x3FF, 0x2B9, fun g s _ => some (.redRmax g s)⟩,
  ⟨0x3FF, 0x2BA, fun g s _ => some (.redRscan g s)⟩,
  ⟨0x3FF, 0x2BB, fun g s _ => some (.redCscan g s)⟩,
  ⟨0x3FF, 0x2BC, fun g s _ => some (.redCsum g s)⟩,
  ⟨0x3FF, 0x2BD, fun g s _ => some (.redCmax g s)⟩]

/-- The trigger ports of the ls rows (R33). -/
def rowsLs : List Row := [
  ⟨0x3FF, 0x2C0, fun g s _ => some (.lsLd8u g s)⟩,
  ⟨0x3FF, 0x2C1, fun g s _ => some (.lsLd16u g s)⟩,
  ⟨0x3FF, 0x2C2, fun g s _ => some (.lsLd32u g s)⟩,
  ⟨0x3FF, 0x2C3, fun g s _ => some (.lsLd64 g s)⟩,
  ⟨0x3FF, 0x2C4, fun g s _ => some (.lsLd8s g s)⟩,
  ⟨0x3FF, 0x2C5, fun g s _ => some (.lsLd16s g s)⟩,
  ⟨0x3FF, 0x2C6, fun g s _ => some (.lsLd32s g s)⟩,
  ⟨0x3FF, 0x2C8, fun g s _ => some (.lsSt8 g s)⟩,
  ⟨0x3FF, 0x2C9, fun g s _ => some (.lsSt16 g s)⟩,
  ⟨0x3FF, 0x2CA, fun g s _ => some (.lsSt32 g s)⟩,
  ⟨0x3FF, 0x2CB, fun g s _ => some (.lsSt64 g s)⟩,
  ⟨0x3FF, 0x2CC, fun g s _ => some (.lsVld g s)⟩,
  ⟨0x3FF, 0x2CD, fun g s _ => some (.lsVst g s)⟩,
  ⟨0x3FF, 0x2D0, fun g s _ => some (.lsBerth g s)⟩]

/-- The trigger ports of the str rows (R33). -/
def rowsStr : List Row := [
  ⟨0x3F8, 0x2E0, fun g s d => some (.strBindf g s (BitVec.ofNat 3 d))⟩,
  ⟨0x3FC, 0x2E8, fun g s d => some (.strBindd g s (BitVec.ofNat 2 d))⟩]

/-- The trigger ports of the mx rows (R33). -/
def rowsMx : List Row := [
  ⟨0x3FF, 0x2F0, fun g s _ => some (.mxPush g s)⟩,
  ⟨0x3FF, 0x2F1, fun g s _ => some (.mxShift g s)⟩,
  ⟨0x3FF, 0x2F2, fun g s _ => some (.mxAcc g s)⟩,
  ⟨0x3FF, 0x2F3, fun g s _ => some (.mxPacc g s)⟩,
  ⟨0x3FF, 0x2F4, fun g s _ => some (.mxSacc g s)⟩,
  ⟨0x3FF, 0x2F6, fun g s _ => some (.mxDrain g s)⟩,
  ⟨0x3FF, 0x2F7, fun g s _ => some (.mxHpset g s)⟩,
  ⟨0x3FF, 0x2F8, fun g s _ => some (.mxRmask g s)⟩,
  ⟨0x3FF, 0x2F9, fun g s _ => some (.mxCmask g s)⟩,
  ⟨0x3FF, 0x2FA, fun g s _ => some (.mxAccxld g s)⟩,
  ⟨0x3FF, 0x2FB, fun g s _ => some (.mxAccxst g s)⟩,
  ⟨0x3FF, 0x2FC, fun g s _ => some (.mxMdq g s)⟩]

/-- The trigger ports of the wr rows (R33). -/
def rowsWr : List Row := [
  ⟨0x3FF, 0x300, fun g s _ => some (.wrCfg g s)⟩,
  ⟨0x3FF, 0x301, fun g s _ => some (.wrLoad g s)⟩,
  ⟨0x3FF, 0x302, fun g s _ => some (.wrBeat g s)⟩,
  ⟨0x3FF, 0x303, fun g s _ => some (.wrLeaf g s)⟩]

/-- The trigger ports of the syn rows (R33). -/
def rowsSyn : List Row := [
  ⟨0x3FF, 0x310, fun g s _ => some (.synLd g s)⟩,
  ⟨0x3FF, 0x311, fun g s _ => some (.synSt g s)⟩,
  ⟨0x3FF, 0x312, fun g s _ => some (.synAdd g s)⟩,
  ⟨0x3FF, 0x313, fun g s _ => some (.synFadd g s)⟩,
  ⟨0x3FF, 0x314, fun g s _ => some (.synMin g s)⟩,
  ⟨0x3FF, 0x315, fun g s _ => some (.synMax g s)⟩,
  ⟨0x3FF, 0x316, fun g s _ => some (.synMinu g s)⟩,
  ⟨0x3FF, 0x317, fun g s _ => some (.synMaxu g s)⟩,
  ⟨0x3FF, 0x318, fun g s _ => some (.synAnd g s)⟩,
  ⟨0x3FF, 0x319, fun g s _ => some (.synOr g s)⟩,
  ⟨0x3FF, 0x31A, fun g s _ => some (.synXor g s)⟩,
  ⟨0x3FF, 0x31B, fun g s _ => some (.synSwap g s)⟩,
  ⟨0x3FF, 0x31C, fun g s _ => some (.synArrive g s)⟩,
  ⟨0x3FF, 0x31D, fun g s _ => some (.synExpect g s)⟩,
  ⟨0x3FF, 0x31E, fun g s _ => some (.synWait g s)⟩,
  ⟨0x3FF, 0x31F, fun g s _ => some (.synTwait g s)⟩,
  ⟨0x3F8, 0x320, fun g s d => some (.synCas g s (BitVec.ofNat 3 d))⟩,
  ⟨0x3FF, 0x328, fun g s _ => some (.synCwait g s)⟩,
  ⟨0x3FF, 0x329, fun g s _ => some (.synCinc g s)⟩,
  ⟨0x3FF, 0x32A, fun g s _ => some (.synArm g s)⟩,
  ⟨0x3FF, 0x32B, fun g s _ => some (.synCreset g s)⟩,
  ⟨0x3FF, 0x32C, fun g s _ => some (.synCresetF g s)⟩,
  ⟨0x3FF, 0x32D, fun g s _ => some (.synBatch g s)⟩,
  ⟨0x3FF, 0x330, fun g s _ => some (.synSend g s)⟩,
  ⟨0x3FF, 0x331, fun g s _ => some (.synRecv g s)⟩,
  ⟨0x3FF, 0x332, fun g s _ => some (.synPset g s)⟩,
  ⟨0x3FF, 0x338, fun g s _ => some (.synColl g s)⟩]

/-- The trigger ports of the eng rows (R33). -/
def rowsEng : List Row := [
  ⟨0x3FF, 0x340, fun g s _ => some (.engTld g s)⟩,
  ⟨0x3FF, 0x341, fun g s _ => some (.engTst g s)⟩,
  ⟨0x3FF, 0x342, fun g s _ => some (.engHld g s)⟩,
  ⟨0x3FF, 0x343, fun g s _ => some (.engWait g s)⟩,
  ⟨0x3F8, 0x348, fun g s d => some (.engTcvt g s (BitVec.ofNat 3 d))⟩,
  ⟨0x3FF, 0x350, fun g s _ => some (.engAq g s)⟩,
  ⟨0x3FF, 0x351, fun g s _ => some (.engPeerwr g s)⟩,
  ⟨0x3FF, 0x352, fun g s _ => some (.engPeerrd g s)⟩,
  ⟨0x3FF, 0x358, fun g s _ => some (.engNmFuse g s)⟩,
  ⟨0x3FF, 0x359, fun g s _ => some (.engNmSadd g s)⟩,
  ⟨0x3FF, 0x35A, fun g s _ => some (.engNmRed g s)⟩,
  ⟨0x3FF, 0x35B, fun g s _ => some (.engNmFill g s)⟩,
  ⟨0x3FF, 0x35C, fun g s _ => some (.engNmCopy g s)⟩]

/-- The trigger ports of the ctl rows (R33). -/
def rowsCtl : List Row := [
  ⟨0x3FF, 0x360, fun g s _ => some (.ctlJmp g s)⟩,
  ⟨0x3FF, 0x361, fun g s _ => some (.ctlBr g s)⟩,
  ⟨0x3FF, 0x362, fun g s _ => some (.ctlCall g s)⟩,
  ⟨0x3FF, 0x363, fun g s _ => some (.ctlCallr g s)⟩,
  ⟨0x3FF, 0x364, fun g s _ => some (.ctlEnd g s)⟩,
  ⟨0x3FF, 0x365, fun g s _ => some (.ctlSys g s)⟩,
  ⟨0x3FF, 0x366, fun g s _ => some (.ctlBrk g s)⟩,
  ⟨0x3FF, 0x367, fun g s _ => some (.ctlIfence g s)⟩,
  ⟨0x3FC, 0x368, fun g s d => if d % 4 = 3 then none else some (.ctlLoop g s (BitVec.ofNat 2 d))⟩,
  ⟨0x3FC, 0x36C, fun g s d => if d % 4 = 3 then none else some (.ctlLoopend g s (BitVec.ofNat 2 d))⟩,
  ⟨0x3FF, 0x370, fun g s _ => some (.ctlRetag g s)⟩]

/-- The last five ctl rows. Lean compiles no constructor beyond its 244th that has arguments, so what makes one of these is
not compiled code; the kernel evaluates it as any other. -/
noncomputable def rowsLast : List Row := [
  ⟨0x3FF, 0x371, fun g s _ => some (.ctlRdsr g s)⟩,
  ⟨0x3FF, 0x372, fun g s _ => some (.ctlWrsr g s)⟩,
  ⟨0x3FF, 0x373, fun g s _ => some (.ctlQmark g s)⟩,
  ⟨0x3F0, 0x380, fun g s d => if 10 < d % 16 then none else some (.ctlFence g s (BitVec.ofNat 4 d))⟩,
  ⟨0x3FF, 0x390, fun g s _ => some (.ctlQuiesce g s)⟩]

/-- The rows of every trigger port but the last five. -/
def firstRows : List Row :=
  rowsIa ++ rowsSf ++ rowsVa0 ++ rowsVa1 ++ rowsSfn ++ rowsXch ++
  rowsRed ++ rowsLs ++ rowsStr ++ rowsMx ++ rowsWr ++ rowsSyn ++
  rowsEng ++ rowsCtl

/-- The rows of every trigger port. -/
noncomputable def triggerRows : List Row := firstRows ++ rowsLast

/-- The first row that the DEST code matches makes the instruction. -/
def findRow : List Row → BitVec 4 → BitVec 10 → Nat → Option Instr
  | [], _, _, _ => none
  | r :: t, g, s, d => if d &&& r.mask = r.pat then r.make g s d else findRow t g s d

/-- The guard field of a slot (R25). -/
def slotGuard (w : BitVec 24) : BitVec 4 := w.extractLsb' 20 4
/-- The source field of a slot (R25). -/
def slotSource (w : BitVec 24) : BitVec 10 := w.extractLsb' 10 10
/-- The destination field of a slot (R25). -/
def slotDest (w : BitVec 24) : BitVec 10 := w.extractLsb' 0 10

/-- A move by its three fields. -/
noncomputable def decodeFields (g : BitVec 4) (s d : BitVec 10) : Except DecodeError Instr :=
  if g = 0 ∧ s = 0 ∧ d = 0 then .ok .nop
  else if !legalSrc s then .error .illegalSource
  else if legalDst d then .ok (.move g s d)
  else match findRow triggerRows g s d.toNat with
    | some i => .ok i
    | none => .error .illegalDest

/-- The instruction of one valid slot. -/
noncomputable def decodeSlot (w : BitVec 24) : Except DecodeError Instr := decodeFields (slotGuard w) (slotSource w) (slotDest w)

/-- The host's question: the instruction the decoder reads from a row's bits; slots are 24 bits wide. -/
noncomputable def decodeTableWord (nbits w : Nat) : Option Instr :=
  if nbits = 24 then
    match decodeSlot (BitVec.ofNat 24 w) with
    | .ok i => some i
    | .error _ => none
  else none

/-- Guard, source and destination fields of a move's slot (R25, R32, R33); an event has none. -/
def fieldsOf : Instr → Option (BitVec 4 × BitVec 10 × BitVec 10)
  | .move g s d => some (g, s, d)
  | .nop => some (0, 0, 0)
  | .iaAdd g s u => some (g, s, BitVec.ofNat 10 (0x100 + u.toNat * 64))
  | .iaSub g s u => some (g, s, BitVec.ofNat 10 (0x101 + u.toNat * 64))
  | .iaAddw g s u => some (g, s, BitVec.ofNat 10 (0x102 + u.toNat * 64))
  | .iaSubw g s u => some (g, s, BitVec.ofNat 10 (0x103 + u.toNat * 64))
  | .iaAnd g s u => some (g, s, BitVec.ofNat 10 (0x104 + u.toNat * 64))
  | .iaOr g s u => some (g, s, BitVec.ofNat 10 (0x105 + u.toNat * 64))
  | .iaXor g s u => some (g, s, BitVec.ofNat 10 (0x106 + u.toNat * 64))
  | .iaAndn g s u => some (g, s, BitVec.ofNat 10 (0x107 + u.toNat * 64))
  | .iaSll g s u => some (g, s, BitVec.ofNat 10 (0x108 + u.toNat * 64))
  | .iaSrl g s u => some (g, s, BitVec.ofNat 10 (0x109 + u.toNat * 64))
  | .iaSra g s u => some (g, s, BitVec.ofNat 10 (0x10A + u.toNat * 64))
  | .iaRor g s u => some (g, s, BitVec.ofNat 10 (0x10B + u.toNat * 64))
  | .iaMin g s u => some (g, s, BitVec.ofNat 10 (0x10C + u.toNat * 64))
  | .iaMax g s u => some (g, s, BitVec.ofNat 10 (0x10D + u.toNat * 64))
  | .iaMinu g s u => some (g, s, BitVec.ofNat 10 (0x10E + u.toNat * 64))
  | .iaMaxu g s u => some (g, s, BitVec.ofNat 10 (0x10F + u.toNat * 64))
  | .iaMul g s u => some (g, s, BitVec.ofNat 10 (0x110 + u.toNat * 64))
  | .iaMulu g s u => some (g, s, BitVec.ofNat 10 (0x111 + u.toNat * 64))
  | .iaMulsu g s u => some (g, s, BitVec.ofNat 10 (0x112 + u.toNat * 64))
  | .iaMulw g s u => some (g, s, BitVec.ofNat 10 (0x113 + u.toNat * 64))
  | .iaEq g s u => some (g, s, BitVec.ofNat 10 (0x118 + u.toNat * 64))
  | .iaLt g s u => some (g, s, BitVec.ofNat 10 (0x119 + u.toNat * 64))
  | .iaLtu g s u => some (g, s, BitVec.ofNat 10 (0x11A + u.toNat * 64))
  | .iaTst g s u => some (g, s, BitVec.ofNat 10 (0x11B + u.toNat * 64))
  | .iaClz g s u => some (g, s, BitVec.ofNat 10 (0x120 + u.toNat * 64))
  | .iaCtz g s u => some (g, s, BitVec.ofNat 10 (0x121 + u.toNat * 64))
  | .iaPopc g s u => some (g, s, BitVec.ofNat 10 (0x122 + u.toNat * 64))
  | .iaBswap g s u => some (g, s, BitVec.ofNat 10 (0x123 + u.toNat * 64))
  | .iaSext g s u => some (g, s, BitVec.ofNat 10 (0x124 + u.toNat * 64))
  | .iaZext g s u => some (g, s, BitVec.ofNat 10 (0x125 + u.toNat * 64))
  | .iaBfxu g s u => some (g, s, BitVec.ofNat 10 (0x126 + u.toNat * 64))
  | .iaBfxs g s u => some (g, s, BitVec.ofNat 10 (0x127 + u.toNat * 64))
  | .iaCat g s u => some (g, s, BitVec.ofNat 10 (0x128 + u.toNat * 64))
  | .iaLea g s u k => some (g, s, BitVec.ofNat 10 (0x130 + u.toNat * 64 + k.toNat))
  | .iaAddsat g s u => some (g, s, BitVec.ofNat 10 (0x134 + u.toNat * 64))
  | .iaSubsat g s u => some (g, s, BitVec.ofNat 10 (0x135 + u.toNat * 64))
  | .sfFadd g s => some (g, s, 0x180)
  | .sfFsub g s => some (g, s, 0x181)
  | .sfFmul g s => some (g, s, 0x182)
  | .sfFmin g s => some (g, s, 0x183)
  | .sfFmax g s => some (g, s, 0x184)
  | .sfFeq g s => some (g, s, 0x188)
  | .sfFlt g s => some (g, s, 0x189)
  | .sfFle g s => some (g, s, 0x18A)
  | .sfFun g s => some (g, s, 0x18B)
  | .sfCvtw g s m => some (g, s, BitVec.ofNat 10 (0x190 + m.toNat))
  | .sfIcvt g s m => some (g, s, BitVec.ofNat 10 (0x198 + m.toNat))
  | .sfCvth g s m => some (g, s, BitVec.ofNat 10 (0x1A0 + m.toNat))
  | .sfCvtb g s m => some (g, s, BitVec.ofNat 10 (0x1A8 + m.toNat))
  | .sfExth g s => some (g, s, 0x1B0)
  | .sfExtb g s => some (g, s, 0x1B1)
  | .va0Fadd g s => some (g, s, 0x1C0)
  | .va0Fsub g s => some (g, s, 0x1C1)
  | .va0Fmul g s => some (g, s, 0x1C2)
  | .va0Fmin g s => some (g, s, 0x1C3)
  | .va0Fmax g s => some (g, s, 0x1C4)
  | .va0Fabs g s => some (g, s, 0x1C5)
  | .va0Fneg g s => some (g, s, 0x1C6)
  | .va0Fdot g s => some (g, s, 0x1C7)
  | .va0Feq g s => some (g, s, 0x1C8)
  | .va0Flt g s => some (g, s, 0x1C9)
  | .va0Fle g s => some (g, s, 0x1CA)
  | .va0Fun g s => some (g, s, 0x1CB)
  | .va0Add g s => some (g, s, 0x1D0)
  | .va0Sub g s => some (g, s, 0x1D1)
  | .va0Mul g s => some (g, s, 0x1D2)
  | .va0Min g s => some (g, s, 0x1D3)
  | .va0Max g s => some (g, s, 0x1D4)
  | .va0Abs g s => some (g, s, 0x1D5)
  | .va0Addsat g s => some (g, s, 0x1D6)
  | .va0Subsat g s => some (g, s, 0x1D7)
  | .va0Eq g s => some (g, s, 0x1D8)
  | .va0Lt g s => some (g, s, 0x1D9)
  | .va0Le g s => some (g, s, 0x1DA)
  | .va0Idot g s => some (g, s, 0x1DB)
  | .va0Sll g s => some (g, s, 0x1DC)
  | .va0Srl g s => some (g, s, 0x1DD)
  | .va0Sra g s => some (g, s, 0x1DE)
  | .va0And g s => some (g, s, 0x1E0)
  | .va0Or g s => some (g, s, 0x1E1)
  | .va0Xor g s => some (g, s, 0x1E2)
  | .va0Andn g s => some (g, s, 0x1E3)
  | .va0Cvt g s m => some (g, s, BitVec.ofNat 10 (0x1E8 + m.toNat))
  | .va0Fma g s k => some (g, s, BitVec.ofNat 10 (0x1F0 + k.toNat))
  | .va0Fms g s k => some (g, s, BitVec.ofNat 10 (0x1F8 + k.toNat))
  | .va0Fnma g s k => some (g, s, BitVec.ofNat 10 (0x200 + k.toNat))
  | .va0Fclamp g s k => some (g, s, BitVec.ofNat 10 (0x208 + k.toNat))
  | .va0Iclamp g s k => some (g, s, BitVec.ofNat 10 (0x210 + k.toNat))
  | .va0Sel g s m => some (g, s, BitVec.ofNat 10 (0x218 + m.toNat))
  | .va1Fadd g s => some (g, s, 0x220)
  | .va1Fsub g s => some (g, s, 0x221)
  | .va1Fmul g s => some (g, s, 0x222)
  | .va1Fmin g s => some (g, s, 0x223)
  | .va1Fmax g s => some (g, s, 0x224)
  | .va1Fabs g s => some (g, s, 0x225)
  | .va1Fneg g s => some (g, s, 0x226)
  | .va1Fdot g s => some (g, s, 0x227)
  | .va1Feq g s => some (g, s, 0x228)
  | .va1Flt g s => some (g, s, 0x229)
  | .va1Fle g s => some (g, s, 0x22A)
  | .va1Fun g s => some (g, s, 0x22B)
  | .va1Add g s => some (g, s, 0x230)
  | .va1Sub g s => some (g, s, 0x231)
  | .va1Mul g s => some (g, s, 0x232)
  | .va1Min g s => some (g, s, 0x233)
  | .va1Max g s => some (g, s, 0x234)
  | .va1Abs g s => some (g, s, 0x235)
  | .va1Addsat g s => some (g, s, 0x236)
  | .va1Subsat g s => some (g, s, 0x237)
  | .va1Eq g s => some (g, s, 0x238)
  | .va1Lt g s => some (g, s, 0x239)
  | .va1Le g s => some (g, s, 0x23A)
  | .va1Idot g s => some (g, s, 0x23B)
  | .va1Sll g s => some (g, s, 0x23C)
  | .va1Srl g s => some (g, s, 0x23D)
  | .va1Sra g s => some (g, s, 0x23E)
  | .va1And g s => some (g, s, 0x240)
  | .va1Or g s => some (g, s, 0x241)
  | .va1Xor g s => some (g, s, 0x242)
  | .va1Andn g s => some (g, s, 0x243)
  | .va1Cvt g s m => some (g, s, BitVec.ofNat 10 (0x248 + m.toNat))
  | .va1Fma g s k => some (g, s, BitVec.ofNat 10 (0x250 + k.toNat))
  | .va1Fms g s k => some (g, s, BitVec.ofNat 10 (0x258 + k.toNat))
  | .va1Fnma g s k => some (g, s, BitVec.ofNat 10 (0x260 + k.toNat))
  | .va1Fclamp g s k => some (g, s, BitVec.ofNat 10 (0x268 + k.toNat))
  | .va1Iclamp g s k => some (g, s, BitVec.ofNat 10 (0x270 + k.toNat))
  | .va1Sel g s m => some (g, s, BitVec.ofNat 10 (0x278 + m.toNat))
  | .sfnExp2 g s => some (g, s, 0x280)
  | .sfnLog2 g s => some (g, s, 0x281)
  | .sfnExp g s => some (g, s, 0x282)
  | .sfnLn g s => some (g, s, 0x283)
  | .sfnRcp g s => some (g, s, 0x284)
  | .sfnRsqrt g s => some (g, s, 0x285)
  | .sfnSqrt g s => some (g, s, 0x286)
  | .sfnTanh g s => some (g, s, 0x287)
  | .sfnLogistic g s => some (g, s, 0x288)
  | .sfnExp2S g s => some (g, s, 0x289)
  | .sfnExpS g s => some (g, s, 0x28A)
  | .sfnRcpS g s => some (g, s, 0x28B)
  | .xchRotr g s => some (g, s, 0x290)
  | .xchShfr g s => some (g, s, 0x291)
  | .xchXorr g s => some (g, s, 0x292)
  | .xchTr16 g s => some (g, s, 0x293)
  | .xchRotc g s => some (g, s, 0x294)
  | .xchShfc g s => some (g, s, 0x295)
  | .xchXorc g s => some (g, s, 0x296)
  | .xchBcrow g s => some (g, s, 0x297)
  | .xchBccol g s => some (g, s, 0x298)
  | .xchBclane g s => some (g, s, 0x299)
  | .xchPermr g s k => some (g, s, BitVec.ofNat 10 (0x2A0 + k.toNat))
  | .xchPermc g s k => some (g, s, BitVec.ofNat 10 (0x2A8 + k.toNat))
  | .redCsumPs g s n => some (g, s, BitVec.ofNat 10 (0x2B0 + n.toNat))
  | .redCmaxPs g s n => some (g, s, BitVec.ofNat 10 (0x2B4 + n.toNat))
  | .redRsum g s => some (g, s, 0x2B8)
  | .redRmax g s => some (g, s, 0x2B9)
  | .redRscan g s => some (g, s, 0x2BA)
  | .redCscan g s => some (g, s, 0x2BB)
  | .redCsum g s => some (g, s, 0x2BC)
  | .redCmax g s => some (g, s, 0x2BD)
  | .lsLd8u g s => some (g, s, 0x2C0)
  | .lsLd16u g s => some (g, s, 0x2C1)
  | .lsLd32u g s => some (g, s, 0x2C2)
  | .lsLd64 g s => some (g, s, 0x2C3)
  | .lsLd8s g s => some (g, s, 0x2C4)
  | .lsLd16s g s => some (g, s, 0x2C5)
  | .lsLd32s g s => some (g, s, 0x2C6)
  | .lsSt8 g s => some (g, s, 0x2C8)
  | .lsSt16 g s => some (g, s, 0x2C9)
  | .lsSt32 g s => some (g, s, 0x2CA)
  | .lsSt64 g s => some (g, s, 0x2CB)
  | .lsVld g s => some (g, s, 0x2CC)
  | .lsVst g s => some (g, s, 0x2CD)
  | .lsBerth g s => some (g, s, 0x2D0)
  | .strBindf g s n => some (g, s, BitVec.ofNat 10 (0x2E0 + n.toNat))
  | .strBindd g s n => some (g, s, BitVec.ofNat 10 (0x2E8 + n.toNat))
  | .mxPush g s => some (g, s, 0x2F0)
  | .mxShift g s => some (g, s, 0x2F1)
  | .mxAcc g s => some (g, s, 0x2F2)
  | .mxPacc g s => some (g, s, 0x2F3)
  | .mxSacc g s => some (g, s, 0x2F4)
  | .mxDrain g s => some (g, s, 0x2F6)
  | .mxHpset g s => some (g, s, 0x2F7)
  | .mxRmask g s => some (g, s, 0x2F8)
  | .mxCmask g s => some (g, s, 0x2F9)
  | .mxAccxld g s => some (g, s, 0x2FA)
  | .mxAccxst g s => some (g, s, 0x2FB)
  | .mxMdq g s => some (g, s, 0x2FC)
  | .wrCfg g s => some (g, s, 0x300)
  | .wrLoad g s => some (g, s, 0x301)
  | .wrBeat g s => some (g, s, 0x302)
  | .wrLeaf g s => some (g, s, 0x303)
  | .synLd g s => some (g, s, 0x310)
  | .synSt g s => some (g, s, 0x311)
  | .synAdd g s => some (g, s, 0x312)
  | .synFadd g s => some (g, s, 0x313)
  | .synMin g s => some (g, s, 0x314)
  | .synMax g s => some (g, s, 0x315)
  | .synMinu g s => some (g, s, 0x316)
  | .synMaxu g s => some (g, s, 0x317)
  | .synAnd g s => some (g, s, 0x318)
  | .synOr g s => some (g, s, 0x319)
  | .synXor g s => some (g, s, 0x31A)
  | .synSwap g s => some (g, s, 0x31B)
  | .synArrive g s => some (g, s, 0x31C)
  | .synExpect g s => some (g, s, 0x31D)
  | .synWait g s => some (g, s, 0x31E)
  | .synTwait g s => some (g, s, 0x31F)
  | .synCas g s k => some (g, s, BitVec.ofNat 10 (0x320 + k.toNat))
  | .synCwait g s => some (g, s, 0x328)
  | .synCinc g s => some (g, s, 0x329)
  | .synArm g s => some (g, s, 0x32A)
  | .synCreset g s => some (g, s, 0x32B)
  | .synCresetF g s => some (g, s, 0x32C)
  | .synBatch g s => some (g, s, 0x32D)
  | .synSend g s => some (g, s, 0x330)
  | .synRecv g s => some (g, s, 0x331)
  | .synPset g s => some (g, s, 0x332)
  | .synColl g s => some (g, s, 0x338)
  | .engTld g s => some (g, s, 0x340)
  | .engTst g s => some (g, s, 0x341)
  | .engHld g s => some (g, s, 0x342)
  | .engWait g s => some (g, s, 0x343)
  | .engTcvt g s m => some (g, s, BitVec.ofNat 10 (0x348 + m.toNat))
  | .engAq g s => some (g, s, 0x350)
  | .engPeerwr g s => some (g, s, 0x351)
  | .engPeerrd g s => some (g, s, 0x352)
  | .engNmFuse g s => some (g, s, 0x358)
  | .engNmSadd g s => some (g, s, 0x359)
  | .engNmRed g s => some (g, s, 0x35A)
  | .engNmFill g s => some (g, s, 0x35B)
  | .engNmCopy g s => some (g, s, 0x35C)
  | .ctlJmp g s => some (g, s, 0x360)
  | .ctlBr g s => some (g, s, 0x361)
  | .ctlCall g s => some (g, s, 0x362)
  | .ctlCallr g s => some (g, s, 0x363)
  | .ctlEnd g s => some (g, s, 0x364)
  | .ctlSys g s => some (g, s, 0x365)
  | .ctlBrk g s => some (g, s, 0x366)
  | .ctlIfence g s => some (g, s, 0x367)
  | .ctlLoop g s l => some (g, s, BitVec.ofNat 10 (0x368 + l.toNat))
  | .ctlLoopend g s l => some (g, s, BitVec.ofNat 10 (0x36C + l.toNat))
  | .ctlRetag g s => some (g, s, 0x370)
  | .ctlRdsr g s => some (g, s, 0x371)
  | .ctlWrsr g s => some (g, s, 0x372)
  | .ctlQmark g s => some (g, s, 0x373)
  | .ctlFence g s s_part2 => some (g, s, BitVec.ofNat 10 (0x380 + s_part2.toNat))
  | .ctlQuiesce g s => some (g, s, 0x390)
  | .bundleFetch _ _ => none
  | .resultLanding _ => none
  | .berthReply _ _ => none
  | .berthLanding _ => none
  | .endpointTimeout _ => none
  | .deadline _ => none
  | .checkpointOverdue _ => none
  | .engineSectorReturn _ _ _ => none
  | .sectorTimeout _ _ _ => none
  | .wharfOperationPerform _ _ => none
  | .wharfReply _ _ => none
  | .twaitTimeout _ _ => none
  | .batchRecordPerform _ _ _ => none
  | .messageArrival _ => none
  | .messageAcknowledgement _ => none
  | .receiveLanding _ => none
  | .flitResend _ => none
  | .linkDown _ => none
  | .peerTransferArrival _ => none
  | .packetHop _ => none
  | .lkemit _ _ _ _ => none
  | .lkcmdtail _ _ _ => none
  | .hartException _ _ _ => none
  | .aqueductBlockArrival _ => none
  | .nearMemoryExecute _ _ => none
  | .pageExpansion _ _ => none
  | .pageCompression _ _ => none
  | .pageMigration _ _ _ => none
  | .pageRequest _ _ _ => none
  | .pageMapped _ _ _ => none
  | .pageUnmappable _ _ => none
  | .trapReturn _ => none
  | .trapEnd _ => none
  | .interrupt _ => none
  | .preemptionRequest _ => none
  | .contextHalt _ => none
  | .contextSave _ => none
  | .contextRestore _ => none
  | .launchAcceptance => none
  | .phaseBoundary _ => none
  | .taskBinding _ => none
  | .stagingCopy _ => none
  | .taskStart _ => none
  | .taskRetirement _ _ => none
  | .runLimit _ => none
  | .launchCompletion _ => none
  | .quiescePerformed _ => none
  | .quiesce _ => none
  | .shoot _ => none
  | .sack _ => none
  | .poolpush _ => none
  | .poolpop _ => none
  | .slotval _ => none
  | .atval _ => none
  | .dbgctl _ => none
  | .managementRegisterWrite _ _ _ => none
  | .release _ => none
  | .cancel _ => none
  | .statementRequest => none
  | .attestationReport _ _ _ => none
  | .presentStatement _ => none
  | .importStatement _ => none
  | .dbgInterrupt => none
  | .dbgSave => none
  | .dbgResume => none
  | .dbgRestore => none
  | .dbgEnd => none
  | .powerOnReset => none
  | .errorDetected _ _ _ _ => none
  | .patrolScrub => none
  | .machineCheck _ => none
  | .edgeFailure _ => none
  | .selfRefreshEntry _ => none
  | .selfRefreshExit _ => none
  | .coolantFlowLow => none
  | .overTemperature _ _ => none
  | .powerCapExceeded _ => none
  | .ualinkAtomicRequest _ => none
  | .hostLinkWrite _ _ _ _ => none
  | .slotGrant _ _ => none
  | .powerLoss => none
  | .orderlyShutdown => none
  | .migrationOut => none

/-- The 24-bit slot of a move (R25). -/
def encode (i : Instr) : Option (BitVec 24) :=
  match fieldsOf i with
  | some (g, s, d) => some (g ++ s ++ d)
  | none => none

end Sys2Proof
end

