-- ==== Sys2Proof/Config.lean ====
section
/-! DEFINITION. What the spec leaves to the implementation or names only by an outside standard: each is an opaque
constant with no body, so that a claim holds whatever it is (assumption log rows 1, 2 and 3). -/

namespace Sys2Proof

/-- Which of the FP32 values that R95 allows the special-function unit returns, for a port (bits 3:0 of its code)
and an input: a free value (log 1). The unit reduces the number modulo the count of allowed values. -/
opaque Config.sfnPick : BitVec 4 → BitVec 32 → Nat

/-- SHA-256 (R127, R128, R365), an outside standard, uninterpreted (log 2). -/
opaque Config.sha256 : List Byte → BitVec 256

/-- The Ed25519 verification of R128 and R365: key hash, message, signature (log 2). -/
opaque Config.edVerify : BitVec 256 → List Byte → BitVec 512 → Bool

/-- The ML-DSA-65 verification of R128 and R365: key hash, message, signature bytes (log 2). -/
opaque Config.mlVerify : BitVec 256 → List Byte → List Byte → Bool

/-- The 3,373 signature bytes the device puts after a statement or a report (R365, R370) (log 2). -/
opaque Config.deviceSign : List Byte → List Byte

/-- DEVID of R365: the hash of the device's two public keys (log 2). -/
opaque Config.devid : BitVec 256

/-- Whether the resident kernel holds the key pair named by two key hashes (R292 step 3) (log 2). -/
opaque Config.kernelHolds : BitVec 256 → BitVec 256 → Bool

/-- Whether the DEVID stands in the kernel image's approved-device list (R369) (log 2). -/
opaque Config.approvedDevice : BitVec 256 → Bool

/-- Whether a kernel image of the given bytes passes the root-key check of R367 step 3 (log 2). -/
opaque Config.kernelImageGood : List Byte → Bool

/-- Whether the next generation fuse burns (R367 step 4), for the number already burned (log 2). -/
opaque Config.fuseBurns : Nat → Bool

/-- The bounds ABOUND and BBOUND the kernel sets in a generation (R364), before they are brought into range (log 3). -/
opaque Config.abound : Nat → Nat
/-- See `Config.abound`. -/
opaque Config.bbound : Nat → Nat

/-- The name of the compressed descriptor that the base die gives a page it compresses (R340): PPN bits 45:15 of
the leaf, for the n-th compression since boot (log 3). -/
opaque Config.descriptor : Nat → BitVec 31

/-- The space identifier the kernel picks at acceptance from the free ones (R70, R292): an index reduced modulo
their number (log 3). -/
opaque Config.spidPick : Nat → Nat

/-- The launch identifier the kernel assigns (R70, R292) for the n-th acceptance, before it is made fresh (log 3). -/
opaque Config.launchPick : Nat → Nat

/-- The stored bit that a marked byte returns when it is read all the same (R352): the stored bits after an
uncorrectable error, for an address and the byte written there (log 3). -/
opaque Config.markedByte : Nat → BitVec 8 → BitVec 8

/-- Whether the kernel placed an overflow variable of a die's Wharf, by die and offset, in the second of the die's two
stacks (R194) (log 3). -/
opaque Config.overflowHigh : Nat → Nat → Bool

/-- The physical address at which the kernel placed an overflow variable of a die's Wharf, by die and offset, in a pinned frame
(R194), as an event record of its sector names it (R358) (log 3). -/
opaque Config.overflowPlace : Nat → Nat → BitVec 64

/-- A byte of a weight region that the kernel reads through the storage port (R379): what the controller returns, for the
n-th launch record and the virtual address (log 3). -/
opaque Config.storageByte : Nat → Nat → BitVec 8

/-- A word, and a lane, of the result of an operation on an operand of a width or tag that its check did not see (R21, R37), for
the n-th identity of the device: free values (log 47). -/
opaque Config.freeWord : Nat → BitVec 64
/-- See `Config.freeWord`. -/
opaque Config.freeLane : Nat → Nat → BitVec 32

end Sys2Proof
end

