-- ==== Sys2Proof/Machine/State.lean ====
section
/-! DEFINITION. The state of one device, as plain data: its contexts, cores, Wharves, lock-keepers, launches, spaces,
physical memory, management registers and counters, the reasons a step can stop, and the state after reset.
Contexts are keyed by c = 4 × core + ctx, cores by 96 × die + 12 × row + col (R125). -/

namespace Sys2Proof.Machine

/-- Byte memory: address and byte, addresses rising, no byte equal to zero listed; an absent byte reads zero
(R284, R367 step 7: the kernel clears every memory at boot). -/
abbrev Mem := List Host.Cell

/-- A partial-sum latch (R11): 64 lanes and a tag. -/
structure PSum where
  row : NMap Lane
  tag : Fmt
  deriving DecidableEq, Repr

/-- An accumulator plane (R151): cell (i, j) at key 64 i + j, its tag and taint bit. -/
structure Plane where
  cells : NMap Lane
  tag : Fmt
  taint : Bool
  deriving DecidableEq, Repr

/-- A tile-register window (R119): tile-SRAM offset and size in bytes. -/
structure Window where
  off : Nat
  size : Nat
  deriving DecidableEq, Repr

/-- A bound stream (R148, R149): its 32-byte descriptor and the next entry's index. -/
structure Stream where
  desc : BitVec 256
  pos : Nat
  deriving DecidableEq, Repr

/-- What the context's fetch holds for a bundle address (R65, R73): the 32 bytes as one number, or the fault met. -/
inductive Fetched where
  | bundle (w : BitVec 256)
  | fault (cause : BitVec 8)
  deriving DecidableEq, Repr

/-- The reply state of a berth (R136 to R138): none yet, the bytes, a fault with its address, or none of a load that is
reissued when the halted context resumes. -/
inductive BerthData where
  | absent
  | again
  | data (bytes : List Byte)
  | fault (cause : BitVec 8) (addr : Word) (bytes : List Byte)
  deriving DecidableEq, Repr

/-- The state of a Wharf reply (R198, R200): none yet, the answer, a refusal with the value that still lands, or a refusal
by the Wharf's access table (R346). -/
inductive Answer where
  | absent
  | ok (w : Word)
  | refused (w : Word)
  | denied
  deriving DecidableEq, Repr

/-- What an in-flight item does when it lands (R16, R91, R132, R135, R159, R163, R198, R223, R236, R237). -/
inductive Item where
  /-- A value for a result port (its source code) or a register (its code). -/
  | result (dst : Nat) (val : PVal)
  /-- A partial-sum accumulation: latch, maximum or sum, accumulation format, column roots. -/
  | psAcc (n : Nat) (isMax : Bool) (acc : Fmt) (roots : NMap Lane)
  /-- A scalar tile-SRAM load: address, size in bytes, sign extension. -/
  | lsLoad (addr size : Nat) (sign : Bool)
  /-- A scalar tile-SRAM store. -/
  | lsStore (addr size : Nat) (val : Word)
  /-- A vector tile-SRAM load and the tile register whose tag it takes. -/
  | lsVld (treg addr : Nat)
  /-- A vector tile-SRAM store and the tile register whose tag it sets. -/
  | lsVst (treg addr : Nat) (val : VVal)
  /-- A berth load: address, control word, reply, and whether its timeout trap has been taken. -/
  | berth (addr ctl : Word) (reply : BerthData) (timedOut : Bool)
  /-- A matrix beat with the operands it latched: port, word, masks, two slices and their format, the Hold row
  and its format, the metadata entry, and whether its recomputation mismatched. -/
  | beat (port : Nat) (word rowm colm : Word) (a0 a1 : NMap Lane) (aFmt : Fmt) (row : List Byte) (rowFmt : Fmt) (mdata : BitVec 1024) (bad : Bool)
  /-- A plane drain: word, column mask at issue, and whether its taint trap has been taken. -/
  | drain (word colm : Word) (trapped : Bool)
  /-- A Weir beat: destination row, exit-leaf indices, whether it is faulty, and whether its trap has been taken. -/
  | wbeat (drow : Nat) (idx : NMap Lane) (bad trapped : Bool)
  /-- A leaf gather: word, indices, and the values and tag once read. -/
  | wleaf (word : Word) (idx : NMap Lane) (vals : Option (NMap Lane × Fmt))
  /-- A Wharf reply or acknowledgement: port, address word, answer, whether it refuses the timeout of R199, and
  whether its timeout trap has been taken. -/
  | wharf (port : Nat) (addr : Word) (ans : Answer) (timedOut : Bool)
  /-- A receive claim: source word, ordinal k, receive word. -/
  | claim (src : Word) (k : Nat) (recv : Word)
  deriving DecidableEq, Repr

/-- One entry of the snapshot buffer (R16, R19): identity, landing cycle, and the item. -/
structure Flight where
  fid : Nat
  due : Word
  item : Item
  deriving DecidableEq, Repr

/-- What a queue entry is (R169, R189, R190): a berth load, a command, a near-memory command, a marker or a fence. -/
inductive QKind where
  | berth | cmd | nm | marker | fence
  deriving DecidableEq, Repr

/-- An entry of a load or store queue (R169): its kind, the berth's or command's identity, its age in program
order, the acquire or release mark, and its scope. -/
structure QEnt where
  kind : QKind
  id : Nat
  age : Nat
  ord : Bool
  scope : Nat
  deriving DecidableEq, Repr

/-- Where a context stands in the life of a task (R302 to R304, R313, R317, R320, R375). -/
inductive CtxStat where
  | free | staging | ready | trapped | interrupted | held | halted
  deriving DecidableEq, Repr

/-- What kind of freeze holds a context (R215, R217); a fetch stands apart, since it keeps the width (R304). A program
freeze on an item due (`await`) stands before the landing, any other behind it (R381). -/
inductive FreezeKind where
  | fetch | endpoint | engine | program | await
  deriving DecidableEq, Repr

/-- A task named by its launch identifier and task index (R70). -/
structure TaskRef where
  launch : Word
  task : Nat
  deriving DecidableEq, Repr

/-- The state of one context (R11, R13, R70, R122, R151, R229, R315). -/
structure Ctx where
  stat : CtxStat
  task : Option TaskRef
  spid : Nat
  /-- Cycles issued: the logical clock and the phase-relative base (R213). -/
  lclk : Word
  pb : Word
  /-- The bundle and slot of the next group (R27). -/
  pc : Word
  slot : Nat
  budget : BitVec 32
  /-- Cycle of the last checkpoint group, or 0 (R319). -/
  ckpt : Word
  x : NMap Word
  v : NMap VVal
  /-- Bit i is pi; bit 0 is not stored, p0 reads 1 (R11). -/
  p : BitVec 8
  /-- Bit 64 r + c of a mask is its lane (r, c). -/
  m : NMap (BitVec 1024)
  ps : NMap PSum
  /-- The stage-predicate window S: bit i is si (R66). -/
  sp : BitVec 8
  lc : NMap (BitVec 32)
  lstart : NMap Word
  llen : NMap Nat
  ldrain : NMap (BitVec 8)
  hp : NMap (BitVec 23)
  opA : NMap PVal
  opB : NMap PVal
  resQ : NMap PVal
  resQ2 : NMap PVal
  /-- Cycles for which va0 (key 0) and va1 (key 1) stay busy (R77). -/
  vaBusy : NMap Nat
  snap : List Flight
  fills : NMap Stream
  drains : NMap Stream
  /-- Receives so far per source word without its ACQ and SCOPE (R223). -/
  recvd : NMap Nat
  loadQ : List QEnt
  storeQ : List QEnt
  /-- The fence that holds the next group (R175, R191, R331): age, scope, and the space a quiesce names. -/
  fence : Option (Nat × Nat × Option Nat)
  inlet : List (Nat × Msg)
  /-- Messages accepted so far per source, to number them (R223, R326). -/
  arrived : NMap Nat
  abuf : NMap Lane
  abTag : Fmt
  abUnt : Bool
  rowm : Word
  colm : Word
  mdq : List (BitVec 1024)
  /-- Metadata entries promised by pending mx.mdq commands (R161). -/
  mdqPromised : Nat
  copyHeld : BitVec 32
  /-- Completion-word offset of the copy that holds each copy-held plane (R164). -/
  copyCw : NMap Nat
  recs : NMap (BitVec 128)
  /-- Row region tags: id + 1, or 0 for none (R229). -/
  rtags : NMap Nat
  thf : Fmt
  chain : BitVec 32
  ten : Word
  wtaint : Bool
  trec : NMap Word
  /-- The bundles the context holds: fetched and loop-buffered (R68, R73). -/
  ibuf : NMap Fetched
  /-- The allocation the launch gave (R12, R118, R119). -/
  vbase : Nat
  vcount : Nat
  planes : BitVec 32
  bays : BitVec 16
  win : NMap Window
  ttag : NMap Fmt
  /-- Wall cycle at which the current endpoint freeze began (R217). -/
  frozenAt : Option Nat
  /-- Group-order position and destination rank of the syn.send that holds the frozen group for want of a slot (R217,
  R227). -/
  frozenSend : Option (Nat × Nat)
  /-- The freeze that held the context when its group was last tried. -/
  frz : Option FreezeKind
  /-- It halted at a checkpoint, for a checkpoint image (R320). -/
  atCkpt : Bool
  /-- Inputs already staged (R303). -/
  staged : Nat
  /-- Age source for queue entries. -/
  age : Nat
  deriving DecidableEq, Repr

/-- A pending engine command of a core (R142): identity, group serial at acceptance, age, issuing context, task,
space, port code, latched words, the record it read, its held ranges (tile offset, length), completion word, bay,
plane, sector count, sectors done, failures (index, code), sectors retried, sectors held for a page (moored where it is
a store), bytes delivered, progress, and rank table. -/
structure Cmd where
  id : Nat
  gid : Nat
  age : Nat
  c : Nat
  task : TaskRef
  spid : Nat
  port : Nat
  a : Word
  b : Word
  info : BitVec 1024
  ranges : List (Nat × Nat)
  cw : Nat
  bay : Option Nat
  plane : Option Nat
  nsec : Nat
  done : List Nat
  fails : List (Nat × Nat)
  retried : List Nat
  moored : List Nat
  delivered : Nat
  prog : Nat
  ranks : List (BitVec 32)
  /-- The completion word that waits for a saved context to be restored (R256, R269, R279). -/
  fin : Option Word
  /-- It faulted while the mooring queue was full, and waits at the head of its store queue (R318). -/
  parked : Bool
  /-- CODE and FIRST of a command that has ended and whose tile-SRAM bytes are not its turn yet (R143). -/
  ended : Option (Nat × Nat)
  /-- Data that its moored sectors or records have still to write, once it has been saved (R318, R328). -/
  data : List (Nat × List Byte)
  /-- What it has sent and is not done: packets that have neither ended nor been absorbed (R255), elements that have not
  performed at their receivers (R266), records on their way (R257). -/
  away : List Nat
  /-- Saved sectors or records whose source line was marked when their data was saved (R352). -/
  lost : List Nat
  deriving DecidableEq, Repr

/-- A TLB entry (R336): master, space, page base, large page, physical base, and permission bits X W R of R334. -/
structure Tlb where
  master : Nat
  spid : Nat
  base : Word
  large : Bool
  pa : Nat
  perm : BitVec 3
  deriving DecidableEq, Repr

/-- A grant-table entry (R126, R347) and the launch it is tagged with. -/
structure Grant where
  launch : Word
  info : BitVec 256
  deriving DecidableEq, Repr

/-- What another launch's task displaced on a core (R284): the launch whose tasks left it, the part (a tile-SRAM line n
at n, bay b at 65536 + b, plane p at 131072 + p), its bytes, whether the line is marked, its sector tags and marks, and
its plane. -/
structure Left where
  launch : Word
  part : Nat
  bytes : List Byte
  marks : NMap (BitVec 64)
  tags : NMap Nat
  plane : Plane
  deriving DecidableEq, Repr

/-- The state of one tile core (R12, R129, R142, R152, R304, R318). -/
structure Core where
  tile : Mem
  /-- 64-byte tile-SRAM lines marked uncorrectable: line number, bytes not yet written since (R352). -/
  tmarks : NMap (BitVec 64)
  hold : Mem
  /-- Hold sectors marked uncorrectable, in the same form. -/
  hmarks : NMap (BitVec 64)
  /-- Region tag of each Hold sector: id + 1, or 0 for none (R152). -/
  htags : NMap Nat
  bayTag : NMap Fmt
  planes : NMap Plane
  /-- The launch whose tasks last held each part of the core, and what other launches' tasks left (R284). -/
  heldBy : NMap Word
  left : List Left
  cmds : List Cmd
  /-- The context that holds the issue width, groups issued in its run, and a standing pre-emption request. -/
  width : Nat
  run : Nat
  idle : Bool
  /-- Contexts found ready in the wall cycle of the last group of a run that has come to its limit (R304). -/
  ready : List Nat
  preempt : Option Nat
  grants : List Grant
  deriving DecidableEq, Repr

/-- A Wharf operation on its way or accepted (R199, R200): identity, context, the reply it owes, port, address word,
operand, compared value, age, the command whose completion word it writes, task and space. -/
structure WOp where
  id : Nat
  c : Nat
  fid : Nat
  port : Nat
  addr : Word
  b : Word
  e : Word
  age : Nat
  cmd : Option Nat
  info : BitVec 256
  task : TaskRef
  spid : Nat
  deriving DecidableEq, Repr

/-- An armed operation (R208), in arming order. -/
structure Armed where
  id : Nat
  key : Nat
  info : BitVec 256
  launch : Word
  spid : Nat
  c : Nat
  deriving DecidableEq, Repr

/-- A registered waiter (R205, R209): the operation, its variable, and the wall cycle at which a timed wait expires. -/
structure Waiter where
  op : WOp
  key : Nat
  expire : Option Nat
  deriving DecidableEq, Repr

/-- The state of one Wharf (R194 to R210). -/
structure Wharf where
  vars : NMap Word
  inq : List WOp
  armed : List Armed
  waiters : List Waiter
  heldArr : List (Nat × WOp)
  reorder : List (Nat × WOp)
  /-- Fired operations that wait: KIND 3 stores for a page, others for a stack in self-refresh (R209, R357). -/
  stores : List Armed
  /-- Report words of fired operations still to be written: offset, code, space (R209). -/
  reports : List (Nat × Nat × Nat)
  /-- Bytes landed for barrier records in a stack in self-refresh: record, bytes, space (R204, R357). -/
  landing : List (Nat × Nat × Nat)
  /-- Answers not yet back at their contexts: context, flight, answer (R198, R199). -/
  replies : List (Nat × Nat × Answer)
  /-- Fired stores that another device has still to make visible (R186, R209). -/
  sent : List Armed
  /-- Operations performed whose answers have not landed, as the command log keeps them (R199). -/
  log : List WOp
  /-- Offsets of the records used as barriers so far (R203, log 12). -/
  barriers : List Nat
  /-- Variables that an uncorrectable error has hit, which read zero after the quiesce of their launch (R354). -/
  lost : List Nat
  deriving DecidableEq, Repr

/-- One hart of a lock-keeper core (R242, R243): its registers as they start (integer, floating-point and vector registers by
number, pc, mstatus.MIE, whether mstatus.FS and VS enable the floating-point and vector units, mtvec, satp), its firmware-SRAM
slot, its command ring with the commands that wait for room, each with its rank table, and its rank-table copies. A vector
register has 1,024 bits: DESIGN CHOICE, since the spec gives no VLEN (log 62). -/
structure Hart where
  launch : Option Word
  stopped : Bool
  x : NMap Word
  f : NMap Word
  v : NMap (BitVec 1024)
  pc : Word
  mie : Bool
  fpOn : Bool
  vecOn : Bool
  mtvec : Word
  satp : Word
  fw : Mem
  ring : List (BitVec 512)
  head : BitVec 32
  tail : BitVec 32
  emitted : Word
  waiting : List (BitVec 512 × List (BitVec 32))
  rt : Mem
  deriving DecidableEq, Repr

/-- An accumulator of R249: key, the packet of the first arrival, highest rank folded, data, and held packets. -/
structure Accum where
  launch : Word
  seq : BitVec 32
  chunk : BitVec 16
  dev : BitVec 16
  core : BitVec 13
  hdr : BitVec 512
  high : Option Nat
  data : List Byte
  held : List Packet
  deriving DecidableEq, Repr

/-- An accepted emit whose payload is still to be read: its command's core and identity, its header, its identity (R245). -/
structure Emit where
  core : Nat
  cmd : Nat
  hdr : BitVec 512
  tag : Nat
  deriving DecidableEq, Repr

/-- A rank of a collective or exchange whose command has been accepted: rank, device, position, descriptor or map, rank table,
and the code with which it is through (R254, R262, R268). -/
structure Joined where
  rank : Nat
  dev : Nat
  ctx : Nat
  info : BitVec 1024
  ranks : List (BitVec 32)
  through : Option Nat
  deriving DecidableEq, Repr

/-- A collective or exchange (R254, R262): its launch, port and SEQ, the ranks that have joined, and the code with which it
has failed, so that the ranks still to join end with it too (R255, R268); 0 for one that is over on this device. While an exchange
fails, `told` holds the devices that have ended their part of it, with the lowest code that each had met (R268). -/
structure SeqRec where
  launch : Word
  port : Nat
  seq : BitVec 32
  joined : List Joined
  failed : Option Nat
  told : List (Nat × Nat)
  deriving DecidableEq, Repr

/-- A lock-keeper (R241): four harts, the packet engine's accumulators and waiting packets, whether it stopped. -/
structure Keeper where
  harts : NMap Hart
  accs : List Accum
  buf : List Packet
  /-- Emits that wait for the bytes of their payload (R143, R245). -/
  emits : List Emit
  /-- Frames that the collective buffer has spilled into, with their launches (R241). -/
  spill : List (Word × Nat)
  stopped : Bool
  deriving DecidableEq, Repr

/-- Where a task stands (R285, R301, R302). -/
inductive TaskStat where
  | waiting | bound (c : Nat) | running (c : Nat) | preempted (c : Nat) | ended (c : Nat) | retired | skipped
  deriving DecidableEq, Repr

/-- A launch the device knows (R290 to R299). -/
structure Launch where
  id : Word
  info : BitVec 1024
  spid : Nat
  image : List Byte
  sections : List (BitVec 256)
  tasks : List (BitVec 512)
  inputs : List (BitVec 256)
  windows : List (BitVec 64)
  ckpts : List (BitVec 128)
  lives : List (BitVec 128)
  phases : List (BitVec 192)
  groups : List (BitVec 512)
  regions : List (BitVec 512)
  args : NMap Word
  classes : NMap (BitVec 2)
  routes : NMap (BitVec 128)
  deps : List Word
  tstat : NMap TaskStat
  hart : Option Nat
  /-- 0 queued, 1 held, 2 active, 3 aborted and awaiting completion, 4 ended and awaiting completion, 5 cancelled and awaiting
  its record. -/
  stage : Nat
  released : Bool
  deptag : Word
  phase : Nat
  phaseOn : Bool
  variant : Nat
  nphase : Nat
  phaseStart : Nat
  lastRet : NMap Nat
  verdict : Nat
  ncorr : Nat
  fault : Option (Nat × Nat × Nat × Nat)
  closedSeq : List (BitVec 32)
  closedAq : List (BitVec 32)
  /-- SEQ of the statement emitted at its completion, 0 before (R298, R299). -/
  stmt : Nat
  /-- Dependences that have completed, and whether they did so TAINTED or CANCELLED (R293). -/
  depOut : List (Word × Bool)
  /-- Contexts on which a task of the launch has ended (R225). -/
  gone : List Nat
  deriving DecidableEq, Repr

/-- A compressed page (R339, R340), of 64 KiB or 256 MiB: its bytes and its marked lines, at offsets in the page, and the
tag of each of its frames that has one, by the frame's place in it (R360). -/
structure TierPage where
  bytes : Mem
  marks : NMap (BitVec 64)
  tags : NMap (BitVec 16)
  deriving DecidableEq, Repr

/-- An access that a stack in thermal self-refresh holds (R357): a sector of a command, a berth load, a record of a
batch, a near-memory command, the write at the head of the storage port; and of a Wharf, an operation, a fired operation,
a report word, or the bytes landed for a barrier record; an aqueduct block at its receiving unit; what another device tells (a
record, a store, an answer); a staging copy and a fetch of a context; a message for the inlet of a saved task; the saving and the
restoring of a context; a page that the kernel compresses, migrates, maps or declares unmappable; the frame tag table that it
places; and bytes that the device itself writes. -/
inductive Held where
  | sector (core id sec : Nat)
  | berth (c fid : Nat)
  | record (core id i : Nat)
  | near (core id : Nat)
  | port
  | wharf (die id : Nat)
  | fired (die id : Nat)
  | report (die off code spid : Nat)
  | landed (die base : Nat)
  | block (p : Packet)
  | note (p : Packet)
  | stage (c : Nat)
  | fetch (c : Nat) (addr : Word)
  | message (m : Msg)
  | save (c : Nat)
  | restore (c : Nat)
  | compress (spid : Nat) (va : Word)
  | migrate (spid : Nat) (va frame : Word)
  | mapped (spid : Nat) (va pte : Word)
  | unmappable (spid : Nat) (va : Word)
  | table (base : Word)
  | bytes (pa : Nat) (bs : List Byte)
  deriving DecidableEq, Repr

/-- A request of the storage port (R188, R379): a write of bytes, or a read of n bytes, at an address of a space. -/
inductive PortReq where
  | write (spid va : Nat) (bs : List Byte)
  | read (spid va n : Nat)
  deriving DecidableEq, Repr

/-- The space of a request. -/
def PortReq.space : PortReq → Nat
  | .write spid _ _ => spid
  | .read spid _ _ => spid
/-- The address and the length of a request. -/
def PortReq.span : PortReq → Nat × Nat
  | .write _ va bs => (va, bs.length)
  | .read _ va n => (va, n)

/-- A saved task (R322): the task, its context, its space, the image's physical address (a host address for an image
that the debugger has asked for), whether the context is held for the debugger, what the device itself keeps of the
context beside the image (log 21), the commands of the task that are still pending, and the messages accepted so far per
source. -/
structure Saved where
  task : TaskRef
  c : Nat
  spid : Nat
  addr : Nat
  forDebug : Bool
  kept : Ctx
  cmds : List Cmd
  arrived : NMap Nat
  /-- The image as the debugger's SAVE wrote it; empty for a saved task (R375). -/
  orig : List Byte
  /-- Frames of the save area, pinned while the image stands there (R322). -/
  frames : List Nat
  /-- Bytes of the ranges held by commands that were saved as they stood: offset and bytes (R330 step 5, log 16). -/
  held : List (Nat × List Byte)
  /-- The task is lost with its image; its queues still perform (R353). -/
  lost : Bool
  /-- Marks of the tile SRAM and the Hold that it carries along (R352). -/
  tmarks : NMap (BitVec 64)
  hmarks : NMap (BitVec 64)
  deriving DecidableEq, Repr

/-- A flit not yet acknowledged (R227, R228): identity, port (24 for the die network 0 to 3 at 24 + die), sending
core, and the message it carries. -/
structure Flit where
  id : Nat
  port : Nat
  core : Nat
  msg : Msg
  /-- It has left its core: the release conditions of R221 held. -/
  gone : Bool
  age : Nat
  c : Nat
  task : TaskRef
  /-- Its destination has accepted it, and the acknowledgement is on its way. -/
  took : Bool
  /-- Flits of its port that it may not leave before, since it was moved there (R228). -/
  behind : List Nat
  deriving DecidableEq, Repr

/-- What leaves the device beside messages. -/
inductive Load where
  | pkt (p : Packet)
  | peer (x : PeerXfer)
  deriving DecidableEq, Repr

/-- A unit of engine traffic that has left for another device and that its link partner has not acknowledged (R227): identity,
the rank it goes to, the die it comes from, its port (none: what devices tell one another takes no slot), its slots of the
skid buffer, and what it is. -/
structure Out where
  id : Nat
  dev : Nat
  die : Nat
  port : Option Nat
  slots : Nat
  load : Load
  /-- Older flits of its port that it may not leave before, since it was moved there (R228). -/
  behind : List Nat
  deriving DecidableEq, Repr

/-- What ends the issue of a group: a trap with its cause and detail words (R311, R314), a freeze (R18), the freeze of a
syn.send that finds no slot, which is an endpoint freeze (R215, R227), or that of a syn.fadd whose Wharf's reorder buffer is full,
which is a program freeze (R201, R215). -/
inductive StopKind where
  | trap (cause : BitVec 8) (d0 d1 : Word)
  | freeze
  | noSlot
  | noRoom
  deriving DecidableEq, Repr

/-- A check that failed at issue: the stage of R381, the class of R38 (0 outside stage 6), the group-order position
of the deciding move, and what happens. -/
structure Stop where
  stage : Nat
  cls : Nat
  pos : Nat
  kind : StopKind
  deriving DecidableEq, Repr

/-- The issue frame: the group being issued, as step 2 and step 3 of R15 see it. -/
structure Iss where
  c : Nat
  /-- Guards: bit 0 always, bits 1-7 p1-p7, bits 8-15 s0-s7 after step 1. -/
  guards : BitVec 16
  /-- Tile SRAM after step 1, for the reads of step 3. -/
  tile0 : Mem
  /-- Serial number of the group. -/
  gid : Nat
  /-- Addresses B and N of R64, slot of the first move, position of the move being executed. -/
  bundle : Word
  after : Word
  slot : Nat
  pos : Nat
  l0 : Option Word
  l1 : Option Word
  /-- The Hold pointers at issue, which wr.load reads (R233). -/
  hp0 : NMap (BitVec 23)
  /-- The check that ended the group's issue, or none. -/
  stop : Option Stop
  /-- The stream checks of plain moves are passed over, to learn what the checks of the group's triggers say. -/
  free : Bool
  /-- Age of the group's first move: the entry that the move at position p makes has age `age0 + p` (R169). -/
  age0 : Nat
  /-- Streams bound by the group: whether a fill stream, its number, the stream; bound after the group (R35). -/
  binds : List (Bool × Nat × Stream)
  /-- Completion words that the group's eng.wait names: the copies' planes are released after the group (R164). -/
  waited : List Nat
  deriving DecidableEq, Repr

/-- Who raises it: the step of a device without power (log 4). Safe: the spec gives no effect to a group of a device
that is switched off. -/
inductive Fault where
  | poweredOff
  deriving DecidableEq, Repr

/-- Who raises it: `notModelled` only an arm of `exec` that has no meaning yet. Safe: nothing is claimed of it. -/
inductive Refusal where
  | notModelled (mnemonic : String)
  deriving DecidableEq, Repr

/-- The whole device. -/
structure State where
  /-- Events of the surroundings and of the device that happen next, in order. -/
  inbox : List Instr
  powered : Bool
  /-- Wall cycles of 1.2 GHz since boot. -/
  wall : Nat
  /-- Core whose selector acts next within the wall cycle. -/
  cur : Nat
  nextId : Nat
  iss : Iss
  ctxs : NMap Ctx
  cores : NMap Core
  wharfs : NMap Wharf
  keepers : NMap Keeper
  launches : List Launch
  /-- HTAG, verdict and STATUS of the last completions of each partition (R292 step 4, R293). -/
  completed : List (Nat × Word × Nat × Nat)
  /-- Partition that received the last binding of each die (R300). -/
  lastPart : NMap Nat
  /-- Bindings in order, for the choice of R309. -/
  bindings : List Nat
  flits : List Flit
  saved : List Saved
  /-- Packets (R248) and aqueduct blocks (R263) on their way in the device, in the order sent, and what has left for other
  devices. -/
  packets : List Packet
  outbound : List Out
  /-- Collectives and exchanges that some rank has joined (R254, R262). -/
  seqs : List SeqRec
  /-- Physical memory: HBM, host memory and peer memory of R332. -/
  mem : Mem
  /-- HBM sectors marked uncorrectable, in the form of a core's line marks (R352). -/
  marks : NMap (BitVec 64)
  tlbs : List Tlb
  /-- Page requests standing (space, page number, die of the GP core that has it), pages declared unmappable (R338). -/
  pageReqs : List (Nat × Nat × Nat)
  unmappable : List (Nat × Nat)
  /-- Descriptors of the space table that the masters hold (R333). -/
  spaces : NMap (BitVec 128)
  /-- Access-table slots: key 8 × (426 × target + master) + slot (R345, R376). -/
  access : NMap (BitVec 16)
  /-- Slot-table bytes: key 64 × channel + slot (R343), and the slot each channel stands at. -/
  slots : NMap (BitVec 8)
  slotAt : NMap Nat
  /-- Slot bytes of the turn that each channel's table is in: a changed slot takes effect from the next one (R376). -/
  turnSlots : NMap (BitVec 8)
  grantLog : NMap Nat
  pools : NMap (List Nat)
  ndesc : Nat
  /-- Compressed page contents by descriptor (R339). -/
  tier : NMap TierPage
  admitted : NMap Nat
  beat : NMap Nat
  cadmit : NMap Nat
  cbeat : NMap Nat
  abound : Nat
  bbound : Nat
  imported : List Nat
  gen : Nat
  stmtSeq : Nat
  stmtPrev : BitVec 256
  committed : Nat
  gapFlag : Bool
  kmeas : BitVec 256
  /-- Counter values of each statement emitted in this generation: SEQ, ADMIT, BEAT (R364). -/
  stmts : List (Nat × NMap Nat × NMap Nat)
  /-- Boot progress (R367) and whether further launches are accepted (R366). -/
  bootStep : Nat
  closed : Bool
  /-- The KIND 4 statement of this generation has been emitted (R366). -/
  final : Bool
  /-- Management registers (R372) that have no behaviour of their own, by offset. -/
  mr : NMap Word
  quiescing : List Nat
  /-- Stores and records away in other devices that used a translation of the last shoot-down asked for: core, or 384 + die of a
  Wharf, identity, and sector or record (R337). -/
  shooting : List (Nat × Nat × Nat)
  evSeq : BitVec 32
  selfRef : BitVec 8
  /-- Accesses held by a stack in self-refresh, in order (R357). -/
  srHeld : NMap (List Held)
  /-- Requests of the storage port that have not performed, in the order received (R188, R338). -/
  portQ : List PortReq
  /-- What the reads of the storage port were given, in order: the bytes, or Unsupported Request (R338, R379). -/
  portGave : List (Option (List Byte))
  deadEdges : List (BitVec 4)
  deadPorts : List Nat
  throttled : Bool
  /-- GP cores that a machine check has stopped (R355). -/
  gpStopped : List Nat
  msix : List Nat
  /-- Contexts whose interrupt has been asked for and has not taken effect (R317). -/
  intReq : List Nat
  /-- Kernel notifications: contexts that trapped (R313). -/
  notified : List Nat
  /-- Statements and completion records held back because a ring is full (R373). -/
  heldOut : List (Bool × List Byte)
  /-- Context of the debugger's SAVE in progress (R375). -/
  dbgSaving : Option Nat
  deriving DecidableEq, Repr

/-- A context with no task: the state of R13 (every register zero, every tag RAW, masks of R151 all ones). -/
def Ctx.init : Ctx :=
  { stat := .free, task := none, spid := 0, lclk := 0, pb := 0, pc := 0, slot := 0, budget := 0, ckpt := 0,
    x := [], v := [], p := 0, m := [], ps := [], sp := 0, lc := [], lstart := [], llen := [], ldrain := [], hp := [],
    opA := [], opB := [], resQ := [], resQ2 := [], vaBusy := [], snap := [], fills := [], drains := [], recvd := [],
    loadQ := [], storeQ := [], fence := none, inlet := [], arrived := [], abuf := [], abTag := .raw, abUnt := false,
    rowm := 0xFFFFFFFFFFFFFFFF, colm := 0xFFFFFFFFFFFFFFFF, mdq := [], mdqPromised := 0, copyHeld := 0, copyCw := [],
    recs := [], rtags := [], thf := .raw, chain := 0, ten := 0, wtaint := false, trec := [], ibuf := [],
    vbase := 0, vcount := 0, planes := 0, bays := 0, win := [], ttag := [], frozenAt := none, frozenSend := none, frz := none,
    atCkpt := false, staged := 0, age := 0 }

/-- A plane that no task has held: +0 in every cell, tag FP32, taint clear (R151). -/
def Plane.init : Plane := ⟨[], .fp32, false⟩

/-- A core after reset: every memory clear, every bay tag RAW (R152), no command, width at context 0. -/
def Core.init : Core :=
  { tile := [], tmarks := [], hold := [], hmarks := [], htags := [], bayTag := [], planes := [], heldBy := [],
    left := [], cmds := [], width := 0, run := 0, idle := true,
    ready := [], preempt := none, grants := [] }

/-- A Wharf after reset: every variable zero (R367 step 7). -/
def Wharf.init : Wharf :=
  { vars := [], inq := [], armed := [], waiters := [], heldArr := [], reorder := [], stores := [], reports := [], landing := [],
    replies := [], sent := [], log := [], barriers := [], lost := [] }

/-- A hart with no launch (R243). -/
def Hart.init : Hart :=
  { launch := none, stopped := false, x := [], f := [], v := [], pc := 0, mie := false, fpOn := false,
    vecOn := false, mtvec := 0, satp := 0, fw := [], ring := [], head := 0, tail := 0, emitted := 0, waiting := [], rt := [] }

/-- A lock-keeper after reset. -/
def Keeper.init : Keeper := { harts := [], accs := [], buf := [], emits := [], spill := [], stopped := false }

/-- The issue frame before any group. -/
def Iss.init : Iss :=
  { c := 0, guards := 1, tile0 := [], gid := 0, bundle := 0, after := 0, slot := 0, pos := 0, l0 := none, l1 := none,
    hp0 := [], stop := none, free := false, age0 := 0, binds := [], waited := [] }

/-- The device right after reset (R367 before step 1): powered, the ROM not yet run, nothing launched, every memory
and register at its reset image. PCAP reads 2,800 (log 5). -/
def State.reset : State :=
  { inbox := [], powered := true, wall := 0, cur := 0, nextId := 0, iss := Iss.init, ctxs := [], cores := [],
    wharfs := [], keepers := [], launches := [], completed := [], lastPart := [], bindings := [], flits := [], saved := [],
    packets := [], outbound := [], seqs := [], mem := [], marks := [], tlbs := [], pageReqs := [], unmappable := [], spaces := [],
    access := [], slots := [], slotAt := [], turnSlots := [], grantLog := [], pools := [], ndesc := 0, tier := [],
    admitted := [], beat := [], cadmit := [], cbeat := [], abound := 0, bbound := 0, imported := [], gen := 0,
    stmtSeq := 0, stmtPrev := 0, committed := 0, gapFlag := false, kmeas := 0, stmts := [],
    bootStep := 0, closed := false, final := false, mr := [(0x518, 2800)], quiescing := [], shooting := [], evSeq := 0, selfRef := 0,
    srHeld := [], portQ := [], portGave := [], deadEdges := [], deadPorts := [], throttled := false, gpStopped := []
    msix := [], intReq := [], notified := [], heldOut := [], dbgSaving := none }

/-- Context c. -/
def State.ctx (s : State) (c : Nat) : Ctx := NMap.get Ctx.init s.ctxs c
/-- State with context c replaced. -/
def State.setCtx (s : State) (c : Nat) (x : Ctx) : State := { s with ctxs := NMap.put s.ctxs c x }
/-- Core k. -/
def State.core (s : State) (k : Nat) : Core := NMap.get Core.init s.cores k
/-- State with core k replaced. -/
def State.setCore (s : State) (k : Nat) (x : Core) : State := { s with cores := NMap.put s.cores k x }
/-- The Wharf of die d. -/
def State.wharf (s : State) (d : Nat) : Wharf := NMap.get Wharf.init s.wharfs d
/-- State with the Wharf of die d replaced. -/
def State.setWharf (s : State) (d : Nat) (x : Wharf) : State := { s with wharfs := NMap.put s.wharfs d x }
/-- Lock-keeper k = 6 × die + port. -/
def State.keeper (s : State) (k : Nat) : Keeper := NMap.get Keeper.init s.keepers k
/-- State with a lock-keeper replaced. -/
def State.setKeeper (s : State) (k : Nat) (x : Keeper) : State := { s with keepers := NMap.put s.keepers k x }

end Sys2Proof.Machine
end

