-- ==== Sys2Proof/Machine/Ops.lean ====
section
/-! DEFINITION. The shared operations: bit fields, byte memory, positions, tile-register windows, held ranges, the
queues of a context, the checks of a group's issue, taking a trap and returning from one, and a launch's verdict. -/

namespace Sys2Proof

/-! ## Formats (R39) -/

/-- The format of a 5-bit tag code; reserved codes have none. -/
def Fmt.ofCode (n : Nat) : Option Fmt :=
  match n with
  | 0 => some .raw | 1 => some .fp32 | 2 => some .bf16 | 3 => some .fp16 | 4 => some .e5m2 | 5 => some .e4m3
  | 6 => some .e2m1 | 7 => some .int32 | 8 => some .int16 | 9 => some .int8 | 10 => some .uint8 | 11 => some .bin8
  | 12 => some .mask | 13 => some .kb9 | 14 => some .kb6 | 15 => some .kb4 | _ => none

/-- The tag code of a format. -/
def Fmt.code : Fmt → Nat
  | .raw => 0 | .fp32 => 1 | .bf16 => 2 | .fp16 => 3 | .e5m2 => 4 | .e4m3 => 5 | .e2m1 => 6 | .int32 => 7
  | .int16 => 8 | .int8 => 9 | .uint8 => 10 | .bin8 => 11 | .mask => 12 | .kb9 => 13 | .kb6 => 14 | .kb4 => 15

/-- A KB block format. -/
def Fmt.isKB : Fmt → Bool
  | .kb9 | .kb6 | .kb4 => true
  | _ => false

/-- The tag a code gives, RAW for a reserved one (R40, restored images). -/
def Fmt.ofCodeRaw (n : Nat) : Fmt := (Fmt.ofCode n).getD .raw

end Sys2Proof

namespace Sys2Proof.Machine

/-! ## Bit fields and lists -/

/-- Bits `lo + len - 1 : lo` of a word, as a number. -/
def fld {n : Nat} (w : BitVec n) (lo len : Nat) : Nat := (w.toNat >>> lo) % 2 ^ len

/-- Bit `i` of a word. -/
def bit {n : Nat} (w : BitVec n) (i : Nat) : Bool := fld w i 1 == 1

/-- Two byte ranges meet. -/
def meets (a n b m : Nat) : Bool := decide (a < b + m) && decide (b < a + n)

/-- Sign extension of the low `k + 1` bits of a word, from bit `k` (R57). -/
def sext (w : Word) (k : Nat) : Word := (w <<< (63 - k)).sshiftRight (63 - k)

/-- One bit as a word. -/
def b2w (b : Bool) : Word := if b then 1 else 0

/-- The first element a list of options holds. -/
def firstSome {α : Type} : List (Option α) → Option α
  | [] => none
  | some a :: _ => some a
  | none :: t => firstSome t

/-- A row or plane of lanes: keys below `n` in rising order, zero lanes left out. -/
def lanesOf (n : Nat) (f : Nat → Lane) : NMap Lane :=
  (List.range n).filterMap (fun k => if f k = 0 then none else some (k, f k))

/-- Lane `k`, zero where absent. -/
def lane (m : NMap Lane) (k : Nat) : Lane := NMap.get 0 m k

/-- The little-endian bytes of a number (R4). -/
def leBytes : Nat → Nat → List Byte
  | 0, _ => []
  | n + 1, v => BitVec.ofNat 8 v :: leBytes n (v / 256)

/-- The number that little-endian bytes stand for (R4). -/
def ofLE : List Byte → Nat
  | [] => 0
  | b :: t => b.toNat + 256 * ofLE t

/-- `n` bytes of a list from offset `i`, padded with zeros. -/
def sliceB (l : List Byte) (i n : Nat) : List Byte :=
  let t := (l.drop i).take n
  t ++ List.replicate (n - t.length) 0

/-- `n` bytes of a list from offset `i`, as a little-endian number. -/
def leAt (l : List Byte) (i n : Nat) : Nat := ofLE ((l.drop i).take n)

/-! ## Byte memory -/

/-- The byte at an address; an unlisted one reads zero. -/
def Mem.get (m : Mem) (a : Nat) : Byte := NMap.get 0 m a

/-- The canonical form: addresses strictly rising, no zero byte listed. -/
def Mem.wf : Mem → Bool
  | [] => true
  | [(_, v)] => v != 0
  | (a, v) :: (b, w) :: t => v != 0 && decide (a < b) && Mem.wf ((b, w) :: t)

/-- The cells that `bs` makes from address `a` on, zero bytes left out. -/
def Mem.cells : Nat → List Byte → Mem
  | _, [] => []
  | a, b :: t => if b = 0 then Mem.cells (a + 1) t else (a, b) :: Mem.cells (a + 1) t

/-- The memory with the bytes `bs` at `a`, `a + 1` and on; its form is kept. -/
def Mem.write (m : Mem) (a : Nat) (bs : List Byte) : Mem :=
  m.filter (fun e => decide (e.1 < a)) ++ Mem.cells a bs ++ m.filter (fun e => decide (a + bs.length ≤ e.1))

/-- The `n` bytes from address `a`. -/
def Mem.read (m : Mem) (a n : Nat) : List Byte := (List.range n).map (fun i => Mem.get m (a + i))

/-- The `n` bytes from `a` as a little-endian number (R4). -/
def Mem.readLE (m : Mem) (a n : Nat) : Nat := ofLE (Mem.read m a n)

/-- The memory with the `n`-byte little-endian form of `v` at `a` (R4). -/
def Mem.writeLE (m : Mem) (a n v : Nat) : Mem := Mem.write m a (leBytes n v)

/-- The memory with `n` bytes from `a` zero. -/
def Mem.clear (m : Mem) (a n : Nat) : Mem := m.filter (fun e => decide (e.1 < a) || decide (a + n ≤ e.1))

/-- The lanes that bytes hold, lane k at byte 4k (R41, R131). -/
def lanesOfBytes (n : Nat) (l : List Byte) : NMap Lane := lanesOf n (fun k => BitVec.ofNat 32 (leAt l (4 * k) 4))

/-- The bytes of `n` lanes, lane k at byte 4k. -/
def bytesOfLanes (n : Nat) (m : NMap Lane) : List Byte :=
  (List.range n).flatMap (fun k => leBytes 4 (lane m k).toNat)

/-! ## Marks (R352) -/

/-- Some 64-byte line of the range is marked. -/
def marksHit (m : NMap (BitVec 64)) (a n : Nat) : Bool := m.any (fun e => meets (64 * e.1) 64 a n)
/-- The marks after a write of `n` bytes at `a`: a mark goes once every byte of its line has been written. -/
def marksWrite (m : NMap (BitVec 64)) (a n : Nat) : NMap (BitVec 64) :=
  (m.map (fun e => (e.1, BitVec.ofNat 64 (((List.range 64).filter (fun i =>
    e.2.getLsbD i && !(decide (a ≤ 64 * e.1 + i) && decide (64 * e.1 + i < a + n)))).foldl (fun s i => s + 2 ^ i) 0)))).filter
    (fun e => e.2 != 0)
/-- The marks with line `l` marked. -/
def marksSet (m : NMap (BitVec 64)) (l : Nat) : NMap (BitVec 64) := NMap.put m l (BitVec.allOnes 64)

/-- The marks of the bytes in some ranges. -/
def marksIn (m : NMap (BitVec 64)) (l : List (Nat × Nat)) : NMap (BitVec 64) :=
  (m.map (fun e => (e.1, BitVec.ofNat 64 (((List.range 64).filter (fun i =>
    e.2.getLsbD i && l.any (fun r => decide (r.1 ≤ 64 * e.1 + i) && decide (64 * e.1 + i < r.1 + r.2)))).foldl (fun s i => s + 2 ^ i) 0)))).filter
    (fun e => e.2 != 0)
/-- The marks of two maps together. -/
def marksJoin (m n : NMap (BitVec 64)) : NMap (BitVec 64) := n.foldl (fun m e => NMap.put m e.1 (NMap.get 0 m e.1 ||| e.2)) m

/-- Tile SRAM of a core with bytes written, and the marks they clear. -/
def Core.putTile (k : Core) (off : Nat) (bs : List Byte) : Core :=
  { k with tile := Mem.write k.tile off bs, tmarks := marksWrite k.tmarks off bs.length }
/-- The launch holds a byte of tile SRAM: its task held the part last that the byte lies in (R284). -/
def Core.owns (k : Core) (launch : Word) (off : Nat) : Bool := NMap.get 0 k.heldBy (off / 64) == launch
/-- What is kept for a launch of a part of tile SRAM that another launch holds now (R284). -/
def Core.keptOf (k : Core) (launch : Word) (part : Nat) : Option Left := k.left.find? (fun v => v.launch == launch && v.part == part)
/-- n bytes of tile SRAM as a launch left them: what it holds, or what is kept for it; a byte that no task of it has been
allocated is zero (R284). -/
def Core.ownBytes (k : Core) (launch : Word) (off n : Nat) : List Byte :=
  (List.range n).map (fun i =>
    let a := off + i
    if k.owns launch a then Mem.get k.tile a
    else match k.keptOf launch (a / 64) with | some v => v.bytes.getD (a % 64) 0 | none => 0)
/-- The first marked line of n bytes of tile SRAM as a launch left them, counted from their start. -/
def Core.ownMark (k : Core) (launch : Word) (off n : Nat) : Option Nat :=
  (List.range ((n + 63) / 64)).find? (fun i =>
    let a := off + 64 * i
    marksHit (if k.owns launch a then k.tmarks else match k.keptOf launch (a / 64) with | some v => v.marks | none => []) a 64)
/-- Bytes that a peer transfer of a launch writes to tile SRAM: to what the launch holds, or to what is kept for it. Bytes that no
task of it has been allocated keep nothing, since they are zero when one is (R284): DEDUCED (log 57). -/
def Core.putOwn (k : Core) (launch : Word) (off : Nat) (bs : List Byte) : Core :=
  (List.range ((off + bs.length + 63) / 64 - off / 64)).foldl (fun k i =>
    let part := off / 64 + i
    let lo := max off (64 * part)
    let piece := (bs.drop (lo - off)).take (64 * part + 64 - lo)
    if k.owns launch lo then k.putTile lo piece
    else { k with left := k.left.map (fun v =>
      if v.launch = launch ∧ v.part = part then
        { v with
          bytes := v.bytes.take (lo % 64) ++ piece ++ v.bytes.drop (lo % 64 + piece.length)
          marks := marksWrite v.marks lo piece.length }
      else v) }) k
/-- The Hold of a core with bytes written, and the marks they clear. -/
def Core.putHold (k : Core) (off : Nat) (bs : List Byte) : Core :=
  { k with hold := Mem.write k.hold off bs, hmarks := marksWrite k.hmarks off bs.length }

/-- Marks stand in tile SRAM and the Hold of a core besides those that it has. -/
def Core.addMarks (k : Core) (t h : NMap (BitVec 64)) : Core := { k with tmarks := marksJoin k.tmarks t, hmarks := marksJoin k.hmarks h }

/-! ## Positions -/

/-- The 13-bit position of context c: CTX, DIE, ROW, COL as bits 12:0 of R14. -/
def ctxPos (c : Nat) : BitVec 13 :=
  let k := c / 4
  BitVec.ofNat 13 ((c % 4) * 2048 + (k / 96) * 512 + (k % 96 / 12) * 64 + k % 12)

/-- The context at a 13-bit position of R14. -/
def ctxOfPos (p : Nat) : Nat := 4 * (96 * (p / 512 % 4) + 12 * (p / 64 % 8) + p % 16) + p / 2048 % 4

/-- A position names a context that exists: mesh column below 12 and bits 5:4 zero. -/
def posOK (p : Nat) : Bool := decide (p % 16 < 12) && decide (p / 16 % 4 = 0)

/-- The die of context c. -/
def dieOf (c : Nat) : Nat := c / 4 / 96

/-- The cluster of a core, 0 to 5: 3 × (ROW div 4) + (COL div 4) (R14). -/
def cluOf (k : Nat) : Nat := 3 * (k % 96 / 12 / 4) + k % 12 / 4

/-- The COORD word of R14. -/
def coordWord (c : Nat) : Word :=
  BitVec.ofNat 64 (cluOf (c / 4) * 8192 + (ctxPos c).toNat)

/-! ## Windows and held ranges -/

/-- The window of tile register t, if the task has one. -/
def Ctx.window (x : Ctx) (t : Nat) : Option Window := (x.win.find? (fun e => e.1 == t)).map (fun e => e.2)

/-- The tag of tile register t. -/
def Ctx.ttagOf (x : Ctx) (t : Nat) : Fmt := NMap.get .raw x.ttag t

/-- The bytes `off` to `off + len - 1` of tile SRAM lie wholly inside one window of the task (R146, R149). -/
def Ctx.inWindow (x : Ctx) (off len : Nat) : Bool :=
  x.win.any (fun e => decide (e.2.off ≤ off) && decide (off + len ≤ e.2.off + e.2.size))

/-- The command holds some byte of the range: one of its ranges, or its completion word (R142). -/
def Cmd.holds (k : Cmd) (off len : Nat) : Bool :=
  k.ranges.any (fun r => meets r.1 r.2 off len) || meets k.cw 8 off len

/-- A pending command of the core, accepted before the group `gid`, holds some byte of the range. -/
def Core.held (k : Core) (gid off len : Nat) : Bool :=
  k.cmds.any (fun m => m.gid != gid && m.holds off len)

/-- The scoreboard bit of tile register t of the context: a command holds a byte of its window (R142). -/
def Ctx.scoreboard (x : Ctx) (k : Core) (gid t : Nat) : Bool :=
  match x.window t with
  | none => false
  | some w => k.held gid w.off w.size

/-- The scoreboard bit of a Hold bay (R142). -/
def Core.baySet (k : Core) (gid bay : Nat) : Bool := k.cmds.any (fun m => m.gid != gid && m.bay == some bay)

/-! ## The context and core that issue -/

/-- The context of the group being issued. -/
def State.cx (s : State) : Ctx := s.ctx s.iss.c
/-- State with the issuing context changed. -/
def State.setCx (s : State) (x : Ctx) : State := s.setCtx s.iss.c x
/-- The core of the group being issued. -/
def State.ck (s : State) : Core := s.core (s.iss.c / 4)
/-- State with the issuing core changed. -/
def State.setCk (s : State) (k : Core) : State := s.setCore (s.iss.c / 4) k
/-- State with context c changed by a function. -/
def State.updCtx (s : State) (c : Nat) (f : Ctx → Ctx) : State := s.setCtx c (f (s.ctx c))
/-- State with core k changed by a function. -/
def State.updCore (s : State) (k : Nat) (f : Core → Core) : State := s.setCore k (f (s.core k))

/-- An operation of the group lands `item` at logical cycle n + lat (R16). -/
def State.fly (s : State) (lat : Nat) (item : Item) : State :=
  let x := s.cx
  { (s.setCx { x with snap := x.snap ++ [⟨s.nextId, x.lclk + BitVec.ofNat 64 lat, item⟩] }) with nextId := s.nextId + 1 }

/-- A result for one port or register (R16). -/
def State.land (s : State) (lat dst : Nat) (v : PVal) : State := s.fly lat (.result dst v)

/-- A scalar result for one port. -/
def State.landS (s : State) (lat dst : Nat) (w : Word) : State := s.land lat dst (.s w)

/-! ## Launches -/

/-- The launch with an identifier. -/
def State.launchOf (s : State) (id : Word) : Option Launch := s.launches.find? (fun l => l.id == id)
/-- State with the launch of an identifier changed. -/
def State.updLaunch (s : State) (id : Word) (f : Launch → Launch) : State :=
  { s with launches := s.launches.map (fun l => if l.id = id then f l else l) }

/-- Part of a table that an entry names. -/
def sub {α : Type} (l : List α) (i n : Nat) : List α := (l.drop i).take n
/-- Input entries of task i. -/
def Launch.inputsOf (l : Launch) (i : Nat) : List (BitVec 256) :=
  let t := l.tasks.getD i 0
  sub l.inputs (fld t 256 32) (fld t 224 16)
/-- Number of devices of a launch, of its own record (R290, R382). -/
def Launch.ndev (l : Launch) : Nat := fld l.info 112 16
/-- This device's rank in the launch. -/
def Launch.rank (l : Launch) : Nat := fld l.info 96 16
/-- The launch's partition. -/
def Launch.part (l : Launch) : Nat := fld l.info 64 4
/-- The launch's priority, 0 highest. -/
def Launch.prio (l : Launch) : Nat := fld l.info 68 2
/-- Message slots of a core on one path (R227, R290). -/
def Launch.mslots (l : Launch) : Nat := fld l.info 72 6 + 1
/-- The launch's HTAG. -/
def Launch.htag (l : Launch) : Word := BitVec.ofNat 64 (fld l.info 0 64)

/-- A corrected event of a launch: the verdict becomes at least CORRECTED, and NCORR counts, saturating (R297, R298). -/
def Launch.correct (l : Launch) : Launch :=
  { l with verdict := max l.verdict 1, ncorr := min (l.ncorr + 1) (2 ^ 32 - 1) }

/-- The verdict becomes TAINTED. The fault kept is the one of the lowest task index and, for that task, the first in
logical order (R297): task, logical cycle, cause, position. -/
def Launch.taint (l : Launch) (f : Nat × Nat × Nat × Nat) : Launch :=
  { l with
    verdict := 2
    fault := match l.fault with
      | none => some f
      | some g => if f.1 < g.1 ∨ (f.1 = g.1 ∧ f.2.1 < g.2.1) then some f else some g }

/-- The verdict becomes TAINTED with no task's fault to report. -/
def Launch.taintOnly (l : Launch) : Launch := { l with verdict := 2 }

/-- The launch is aborted: TAINTED, and it awaits its completion, as one whose last phase has ended or that was cancelled does already
(R293, R297, R299). -/
def Launch.abort (l : Launch) : Launch := { l with verdict := 2, stage := if 4 ≤ l.stage then l.stage else 3 }

/-- The launch identifier of the task of a context, 0 when it holds none. -/
def Ctx.launchId (x : Ctx) : Word := match x.task with | some t => t.launch | none => 0
/-- The task index of a context, 0 when it holds none. -/
def Ctx.taskIx (x : Ctx) : Nat := match x.task with | some t => t.task | none => 0

/-- A corrected event of the launch that context c runs. -/
def State.correctOf (s : State) (c : Nat) : State := s.updLaunch (s.ctx c).launchId Launch.correct
/-- A taint of the launch that context c runs, with this context's task and a cause. -/
def State.taintOf (s : State) (c cause : Nat) : State :=
  let x := s.ctx c
  s.updLaunch x.launchId (fun l => l.taint (x.taskIx, x.lclk.toNat, cause, (ctxPos c).toNat))

/-- The taint of an ls access or stream read that met a marked byte of tile SRAM (R352). -/
def State.taintTile (s : State) (c off n : Nat) : State :=
  if marksHit (s.core (c / 4)).tmarks off n then s.taintOf c 0x10 else s

/-! ## Taking a trap and returning from it -/

/-- The six words of a trap record (R314), word i at key i. -/
def trapRecord (cause : BitVec 8) (slot pos rslot : Nat) (land after : Bool) (resume bundle lclk d0 d1 : Word) : NMap Word :=
  [(0, BitVec.ofNat 64 (cause.toNat + slot % 8 * 256 + min pos 7 * 2048 + rslot % 8 * 65536 +
      (if land then 524288 else 0) + (if after then 1048576 else 0))),
   (1, resume), (2, bundle), (3, lclk), (4, d0), (5, d1)]

/-- Berth loads that met a fault are pending again while the context is halted (R138). -/
def Ctx.parked (x : Ctx) : Ctx :=
  { x with snap := x.snap.map (fun f =>
      { f with item := match f.item with | .berth a w (.fault _ _ _) t => .berth a w .again t | i => i }) }
/-- Berth loads that are to be reissued are outstanding again once the context resumes (R137, R138). -/
def Ctx.reissued (x : Ctx) : Ctx :=
  { x with snap := x.snap.map (fun f =>
      { f with item := match f.item with | .berth a w .again t => .berth a w .absent t | i => i }) }

/-- Taking a trap (R313): the record is written, the context halts at its resume point and stays resident, and the
resident kernel is notified. -/
def takeTrap (s : State) (c : Nat) (cause : BitVec 8) (d0 d1 : Word) (land after : Bool) (pos : Nat)
    (bundle : Word) (slot : Nat) (resume : Word) (rslot : Nat) : State :=
  let x := (s.ctx c).parked
  { (s.setCtx c { x with
      stat := .trapped
      trec := trapRecord cause slot pos rslot land after resume bundle x.lclk d0 d1
      pc := resume, slot := rslot, frozenAt := none, frozenSend := none, frz := none }) with
    notified := s.notified ++ [c] }

/-- A trap before the group of context c at (bundle, slot): the resume point is the group itself (R17, R314). -/
def trapHere (s : State) (c : Nat) (cause : BitVec 8) (d0 d1 : Word) (land : Bool) (pos : Nat)
    (bundle : Word) (slot : Nat) : State :=
  takeTrap s c cause d0 d1 land false pos bundle slot bundle slot

/-- A trap after the group being issued (R71): the resume point is the group that follows. -/
def trapAfter (s : State) (cause : BitVec 8) (arg : Word) : State :=
  takeTrap s s.iss.c cause arg 0 false true s.iss.pos s.iss.bundle s.iss.slot s.cx.pc s.cx.slot

/-- Returning a context from a trap, an interrupt or a hold: it resumes where it halted, with its clock, registers
and snapshot buffer as they stood, and its faulted loads are reissued (R137, R138, R316, R317). -/
def returnTo (s : State) (c : Nat) : State :=
  let x := (s.ctx c).reissued
  match x.stat with
  | .trapped | .interrupted | .held | .halted =>
    { (s.setCtx c { x with stat := .ready, frozenAt := none, frozenSend := none, frz := none }) with notified := s.notified.filter (· != c) }
  | _ => s

/-! ## Checks of a group's issue (R38, R381) -/

/-- A trap at a stage of R381 and class of R38, decided by the move being executed. -/
def State.trapAt (s : State) (stage cls : Nat) (cause : BitVec 8) (d0 d1 : Word) : Stop :=
  ⟨stage, cls, s.iss.pos, .trap cause d0 d1⟩
/-- A freeze at a stage of R381. -/
def State.freezeAt (s : State) (stage : Nat) : Stop := ⟨stage, 0, s.iss.pos, .freeze⟩

/-- ILLEGAL_ENCODING of class 2 (R38). -/
def State.cls2 (s : State) : Stop := s.trapAt 6 2 1 0 0
/-- ACCESS_DENIED of class 4 (R12, R38). -/
def State.cls4 (s : State) : Stop := s.trapAt 6 4 9 0 0
/-- FORMAT_MISMATCH of class 5 (R21, R38). -/
def State.cls5 (s : State) : Stop := s.trapAt 6 5 3 0 0
/-- OCCUPANCY of class 6 (R9, R38). -/
def State.cls6 (s : State) : Stop := s.trapAt 6 6 4 0 0
/-- A trap of the trigger's own checks before any freeze (R381 stage 7). -/
def State.own (s : State) (cause : BitVec 8) : Stop := s.trapAt 7 0 cause 0 0
/-- A trap of the checks made after a freeze (R381 stage 9). -/
def State.late (s : State) (cause : BitVec 8) : Stop := s.trapAt 9 0 cause 0 0

/-- A check: it fails with `k` when `b` holds. -/
def chk (b : Bool) (k : Stop) : Option Stop := if b then some k else none

/-- `a` is met before `b`: the lower stage of R381, then the lower class of R38, then the lower position. -/
def Stop.before (a b : Stop) : Bool :=
  decide (a.stage < b.stage) ||
  (decide (a.stage = b.stage) && (decide (a.cls < b.cls) || (decide (a.cls = b.cls) && decide (a.pos < b.pos))))

/-- The check of a list that decides: the one met first, and of equals the earlier in the list. -/
def minStop : List (Option Stop) → Option Stop
  | [] => none
  | none :: t => minStop t
  | some a :: t => match minStop t with
    | none => some a
    | some b => if b.before a then some b else some a

/-- The issue ends at a check: a trap is taken before the group (R17), a freeze holds the context (R18). -/
def State.halt (s : State) (k : Stop) : State :=
  let s1 := { s with iss := { s.iss with stop := some k } }
  match k.kind with
  | .freeze | .noSlot | .noRoom => s1
  | .trap cause d0 d1 => trapHere s1 s.iss.c cause d0 d1 false k.pos s.iss.bundle s.iss.slot

/-- The value of a guard code, as step 2 of R15 left it. -/
def State.guardOn (s : State) (g : BitVec 4) : Bool := s.iss.guards.getLsbD g.toNat

/-- One move at issue. The checks of R38 are made whatever the guard says (R37); the trigger's own checks and
freezes only where the guard is true; a move whose guard is false has no effect (R15). -/
def issue (s : State) (g : BitVec 4) (cls own : List (Option Stop)) (eff : State → State) :
    Host.Outcome State Fault Refusal :=
  match minStop (cls ++ if s.guardOn g && !s.iss.free then own else []) with
  | some k => .next (s.halt k)
  | none => .next (if s.guardOn g then eff s else s)

/-! ## Queues of a context (R169 to R176) -/

/-- The entry is a marker or a fence. -/
def QEnt.isMark (e : QEnt) : Bool := e.kind == .marker || e.kind == .fence

/-- No entry of either queue older than `age` is left that counts at the scope: a near-memory command, once accepted,
counts only from nmem on (R190). -/
def Ctx.drained (x : Ctx) (age scope : Nat) : Bool :=
  (x.loadQ ++ x.storeQ).all (fun e => e.isMark || decide (age ≤ e.age) || (e.kind == .nm && decide (scope < 7)))

/-- An unlanded claim of the context is an acquire older than `age`: claims carry no age of their own, their flight
identity orders them with entries (R226). -/
def Ctx.acqClaim (x : Ctx) (id : Nat) : Bool :=
  x.snap.any (fun f => match f.item with | .claim src _ _ => bit src 55 && decide (f.fid < id) | _ => false)

/-- The order of the queues lets the entry perform (R174, R175, R226): no older marker or fence with an older entry
left, no older acquire left, and for a release no older entry left at all. -/
def Ctx.mayPerform (x : Ctx) (e : QEnt) (inStore : Bool) : Bool :=
  (x.loadQ ++ x.storeQ).all (fun m => !(m.isMark && decide (m.age < e.age)) || x.drained m.age m.scope) &&
  x.loadQ.all (fun m => !(m.ord && decide (m.age < e.age))) &&
  (!(inStore && e.ord) || x.drained e.age e.scope) && !x.acqClaim e.id

/-- A mark has nothing left to order: a fence has performed; a marker has no older entry at all, since a near-memory command that
moors later is still before it (R176, R190). -/
def Ctx.markDone (x : Ctx) (k : QKind) (age scope : Nat) : Bool := x.drained age (if k = .marker then 7 else scope)

/-- The context without marks that nothing older stands before, and without the entry `id` of kind `k`. -/
def Ctx.dequeue (x : Ctx) (k : QKind) (id : Nat) : Ctx :=
  let drop (q : List QEnt) := q.filter (fun e => !(e.kind == k && e.id == id))
  let y := { x with loadQ := drop x.loadQ, storeQ := drop x.storeQ }
  { y with
    loadQ := y.loadQ.filter (fun e => !(e.isMark && y.markDone e.kind e.age e.scope))
    storeQ := y.storeQ.filter (fun e => !(e.isMark && y.markDone e.kind e.age e.scope)) }

/-- A new entry at the tail of the load queue. -/
def Ctx.enqLoad (x : Ctx) (k : QKind) (id : Nat) (ord : Bool) (scope : Nat) : Ctx :=
  { x with loadQ := x.loadQ ++ [⟨k, id, x.age, ord, scope⟩], age := x.age + 1 }
/-- A new entry at the tail of the store queue. -/
def Ctx.enqStore (x : Ctx) (k : QKind) (id : Nat) (ord : Bool) (scope : Nat) : Ctx :=
  { x with storeQ := x.storeQ ++ [⟨k, id, x.age, ord, scope⟩], age := x.age + 1 }
/-- A marker or fence in both queues, at one age (R174, R175); with nothing older it is gone at once. -/
def Ctx.enqMark (x : Ctx) (k : QKind) (id scope : Nat) : Ctx :=
  if x.markDone k x.age scope then { x with age := x.age + 1 }
  else { x with
    loadQ := x.loadQ ++ [⟨k, id, x.age, false, scope⟩]
    storeQ := x.storeQ ++ [⟨k, id, x.age, false, scope⟩], age := x.age + 1 }

end Sys2Proof.Machine
end

