-- ==== Sys2Proof/Machine/Form.lean ====
section
/-! DEFINITION. Bundles and groups as a context finds them at its program counter (R22 to R28, R38 class 1). -/

namespace Sys2Proof.Machine

/-! ## Bundles (R23 to R28) -/

/-- VALID of a bundle. -/
def bValid (w : BitVec 256) : Nat := fld w 8 8
/-- STOP of a bundle. -/
def bStop (w : BitVec 256) (i : Nat) : Bool := bit w i
/-- The valid slots, in order. -/
def bSlots (w : BitVec 256) : List Nat := (List.range 8).filter (fun i => bit w (8 + i))
/-- CKPT of a bundle. -/
def bCkpt (w : BitVec 256) : Bool := bit w 20
/-- Slot i of a bundle. -/
def bSlot (w : BitVec 256) (i : Nat) : BitVec 24 := BitVec.ofNat 24 (fld w (64 + 24 * i) 24)
/-- L0 of a bundle (R28). -/
def bL0 (w : BitVec 256) : Option Word :=
  if fld w 16 2 = 1 then some (sext (BitVec.ofNat 64 (fld w 32 32)) 31)
  else if fld w 16 2 = 2 then some (sext (BitVec.ofNat 64 (fld w 32 16)) 15)
  else none
/-- L1 of a bundle (R28). -/
def bL1 (w : BitVec 256) : Option Word :=
  if fld w 16 2 = 2 then some (sext (BitVec.ofNat 64 (fld w 48 16)) 15) else none

/-- The bundle-level violation of a bundle, by the kind of R314: a reserved bit, VALID or STOP, the long immediate. Of a
bundle with several violations the lowest kind is reported: DESIGN CHOICE, since R38 orders the cases of a move and not
the kinds of the first case (log 46). -/
def bundleBad (w : BitVec 256) : Option Nat :=
  if fld w 18 2 != 0 || fld w 21 11 != 0 then some 1
  else if !([0x01, 0x03, 0x07, 0x0F, 0x1F, 0x3F, 0x7F, 0xFF].contains (bValid w)) ||
      (List.range 8).any (fun i => !bit w (8 + i) && (bStop w i || bSlot w i != 0)) then some 2
  else if (fld w 16 2 == 0 && fld w 32 32 != 0) || fld w 16 2 == 3 then some 3
  else none

/-! ## Groups (R27) -/

/-- A move of a group: its bundle's address, its slot's 24 bits, and the long immediates it sees. -/
structure GMove where
  bundle : Word
  word : BitVec 24
  l0 : Option Word
  l1 : Option Word
  deriving DecidableEq, Repr

/-- What stands at a context's program counter: a bundle still to be fetched, a fetch fault, a violation of class 1 (the
bundle at fault, the deciding position, the kind), or a group with the place of the group that follows it. -/
inductive Formed where
  | need (addr : Word)
  | fault (cause : BitVec 8) (addr : Word)
  | bad (addr : Word) (pos kind : Nat)
  | group (moves : List GMove) (pc : Word) (slot : Nat)
  deriving DecidableEq, Repr

/-- The bundle that the context holds for an address. -/
def Ctx.fetched (x : Ctx) (addr : Word) : Option Fetched := (x.ibuf.find? (fun e => e.1 == addr.toNat)).map (fun e => e.2)

/-- Slot i of a bundle as a move. -/
def gmove (addr : Word) (w : BitVec 256) (i : Nat) : GMove := ⟨addr, bSlot w i, bL0 w, bL1 w⟩

/-- The slots of a bundle from slot `i` on, up to its first stop: their indices, and whether a stop ends them. -/
def upToStop (w : BitVec 256) (i : Nat) : List Nat × Bool :=
  let l := (bSlots w).filter (fun k => decide (i ≤ k))
  match l.find? (bStop w) with
  | some e => (l.filter (fun k => decide (k ≤ e)), true)
  | none => (l, false)

/-- The place after slot `i` of a bundle. -/
def afterSlot (addr : Word) (w : BitVec 256) (i : Nat) : Word × Nat :=
  match (bSlots w).find? (fun k => decide (i < k)) with
  | some k => (addr, k)
  | none => (addr + 32, 0)

/-- The group at the context's program counter (R27, R38 class 1). Its bundles are both fetched before the first is
judged, since fetching and its faults come first (R381 stages 1, 4 and 6). A resume slot that holds no valid move is a
violation of R26 (log 20). A second bundle that breaks R24 to R28 decides at the position of its first move, also where its
VALID is 0 and no move stands there: DESIGN CHOICE, since R38 names no deciding move then (log 46). -/
def Ctx.form (x : Ctx) : Formed :=
  match x.fetched x.pc with
  | none => .need x.pc
  | some (.fault cause) => .fault cause x.pc
  | some (.bundle w) =>
    let a := upToStop w x.slot
    let m1 := a.1.map (gmove x.pc w)
    if a.1 = [] then .bad x.pc 0 ((bundleBad w).getD 2)
    else if a.2 then
      match bundleBad w with
      | some k => .bad x.pc 0 k
      | none =>
        let n := afterSlot x.pc w (a.1.getLast?.getD 0)
        .group m1 n.1 n.2
    else
      let p2 := x.pc + 32
      match x.fetched p2 with
      | none => .need p2
      | some (.fault cause) => .fault cause p2
      | some (.bundle w2) =>
        match bundleBad w with
        | some k => .bad x.pc 0 k
        | none =>
          match bundleBad w2 with
          | some k => .bad p2 m1.length k
          | none =>
            if bCkpt w2 then .bad p2 m1.length 4
            else
              let b := upToStop w2 0
              let n := m1.length + b.1.length
              if 8 < n then .bad p2 8 5
              else if !b.2 then .bad p2 (n - 1) 6
              else
                let e := afterSlot p2 w2 (b.1.getLast?.getD 0)
                .group (m1 ++ b.1.map (gmove p2 w2)) e.1 e.2

/-- The context's next group is a checkpoint group (R24, R319). -/
def Ctx.ckptNext (x : Ctx) : Bool :=
  x.slot == 0 && (match x.fetched x.pc with | some (.bundle w) => bCkpt w | _ => false)

end Sys2Proof.Machine
end

