-- ==== Sys2Proof/Machine/Operands.lean ====
section
/-! DEFINITION. The operand forms: source codes (R29 to R31), destination codes (R32), width rules (R10, R34), the
streams of R148 to R150, and the checks of R38 that the codes of a move carry. -/

namespace Sys2Proof

open Machine

/-! ## Values -/

/-- A vector whose every lane is the low 32 bits of a scalar (R10). -/
def Machine.bcast (w : Word) (unt : Bool) : VVal := ⟨lanesOf 1024 (fun _ => w.setWidth 32), .raw, unt⟩

/-- A vector whose every row is a partial-sum row (R34). -/
def Machine.rowCopy (row : NMap Lane) (tag : Fmt) : VVal := ⟨lanesOf 1024 (fun k => lane row (k % 64)), tag, false⟩

/-- A source value as a V value for a V-width place (R10, R34); `unt` marks an untagged broadcast. -/
def SrcVal.toV (v : SrcVal) (unt : Bool) : VVal :=
  match v with
  | .s w => bcast w unt
  | .v x => x
  | .p row tag => rowCopy row tag

/-- A source value as a scalar: only an S value reaches an S-width place. -/
def SrcVal.toS : SrcVal → Word
  | .s w => w
  | _ => 0

/-- A source value as a partial-sum row: an S value is broadcast, with tag RAW (R34). -/
def SrcVal.toP : SrcVal → PSum
  | .s w => ⟨lanesOf 64 (fun _ => w.setWidth 32), .raw⟩
  | .p row tag => ⟨row, tag⟩
  | .v _ => ⟨[], .raw⟩

/-- A mask from a source value: bit 0 of each lane, or of the scalar (R34). -/
def SrcVal.toM (v : SrcVal) : BitVec 1024 :=
  match v with
  | .s w => if w.getLsbD 0 then BitVec.allOnes 1024 else 0
  | _ =>
    let m := (v.toV false).lanes
    BitVec.ofNat 1024 (((List.range 1024).filter (fun k => (lane m k).getLsbD 0)).foldl (fun a k => a + 2 ^ k) 0)

end Sys2Proof

namespace Sys2Proof.Machine

/-- Width of a source or destination (R29, R32). -/
inductive Wd where
  | s | v | p
  deriving DecidableEq, Repr

/-- Units whose .a port is V width (R6). -/
def unitAV (u : Nat) : Bool := u == 3 || u == 4 || u == 5 || u == 6 || u == 7 || u == 10 || u == 11

/-- The reset value of a latch or result port of a unit: S or V width (R13). -/
def portZero (v : Bool) : PVal := if v then .v VVal.zero else .s 0
/-- Units whose .b port is V width (R6). -/
def unitBV (u : Nat) : Bool := u == 3 || u == 4

/-- The value standing at a result port (R13): S or V. At task start ls.q holds an S zero (log 50). -/
def Ctx.port (x : Ctx) (code : Nat) : PVal :=
  let u := (code - 0x080) / 2
  let m := if code % 2 = 0 then x.resQ else x.resQ2
  let d : PVal := if u == 3 || u == 4 || u == 5 || u == 6 || u == 7 || u == 10 || u == 11 then .v VVal.zero else .s 0
  NMap.get d m u

/-- Width of a legal source as the move reads it (R29, R34). -/
def Ctx.srcWd (x : Ctx) (src : BitVec 10) : Wd :=
  let n := src.toNat
  if n < 0x040 then .s
  else if n < 0x060 then .v
  else if n < 0x068 then .s
  else if n < 0x078 then .v
  else if n < 0x080 then .p
  else if n < 0x0C0 then match x.port n with | .s _ => .s | .v _ => .v
  else .s

/-- Width of a legal destination (R6, R32): `ls.b` has none of its own. -/
def dstWd (dst : BitVec 10) : Option Wd :=
  let n := dst.toNat
  if n < 0x040 then some .s
  else if n < 0x060 then some .v
  else if n < 0x068 then some .s
  else if n < 0x078 then some .v
  else if n < 0x080 then some .p
  else
    let u := (n - 0x080) / 2
    if n % 2 = 0 then (if unitAV u then some .v else some .s)
    else if u == 3 || u == 4 then some .v
    else if u == 8 then none
    else some .s

/-- A move of one width to a destination that R10 and R34 call ILLEGAL_ENCODING. -/
def widthBad (w : Wd) (d : Option Wd) : Bool :=
  match w, d with
  | .v, some .s => true
  | .v, some .p => true
  | .p, some .s => true
  | _, _ => false

/-! ## Streams -/

/-- A signed 32-bit field of a stream descriptor. -/
def sfld (d : BitVec 256) (lo : Nat) : Int :=
  let v := fld d lo 32
  if v < 2147483648 then (v : Int) else (v : Int) - 4294967296

/-- Extent i of a stream (R148). -/
def Stream.ext (t : Stream) (i : Nat) : Nat := fld t.desc (64 + 16 * i) 16
/-- The tile register a stream walks. -/
def Stream.treg (t : Stream) : Nat := fld t.desc 0 6
/-- The tag of a fill entry. -/
def Stream.fmt (t : Stream) : Fmt := Fmt.ofCodeRaw (fld t.desc 16 5)
/-- Entries of the walk: R div 16. -/
def Stream.entries (t : Stream) : Nat := t.ext 0 * t.ext 1 * t.ext 2 * t.ext 3 / 16

/-- Window offset of row j of the walk (R148). -/
def Stream.row (t : Stream) (j : Nat) : Int :=
  let e0 := t.ext 0
  let e1 := t.ext 1
  let e2 := t.ext 2
  (fld t.desc 48 16 : Int) + (j % e0 : Nat) * sfld t.desc 128 + (j / e0 % e1 : Nat) * sfld t.desc 160 +
    (j / (e0 * e1) % e2 : Nat) * sfld t.desc 192 + (j / (e0 * e1 * e2) : Nat) * sfld t.desc 224

/-- The tile-SRAM offset of row r of the stream's next entry, with the window's base. -/
def Stream.at (t : Stream) (base r : Nat) : Nat := (base + t.row (16 * t.pos + r)).toNat

/-- The stream is unbound or at its end (R150). -/
def streamEnd (t : Option Stream) : Bool :=
  match t with
  | none => true
  | some t => decide (t.entries ≤ t.pos)

/-- The base of the window a stream walks. -/
def Ctx.sbase (x : Ctx) (t : Stream) : Nat := match x.window t.treg with | some w => w.off | none => 0

/-- Some byte of the stream's next entry lies in a held range (R150). -/
def streamHeld (x : Ctx) (k : Core) (gid : Nat) (t : Option Stream) : Bool :=
  match t with
  | none => false
  | some t => (List.range 16).any (fun r => k.held gid (t.at (x.sbase t) r) 256)

/-- The value of a fill stream's next entry, from tile SRAM as it stands (R148, R150). -/
def fillValue (x : Ctx) (m : Mem) (t : Stream) : VVal :=
  ⟨lanesOf 1024 (fun k => BitVec.ofNat 32 (Mem.readLE m (t.at (x.sbase t) (k / 64) + 4 * (k % 64)) 4)), t.fmt, false⟩

/-- The core after a drain stream's next entry takes a value; the later row of the walk wins (R150). -/
def drainWrite (k : Core) (t : Stream) (base : Nat) (v : VVal) : Core :=
  (List.range 16).foldl
    (fun k r => k.putTile (t.at base r) (bytesOfLanes 64 (lanesOf 64 (fun c => lane v.lanes (64 * r + c))))) k

/-- The fill stream of a code 0x070 to 0x077. -/
def Ctx.fill (x : Ctx) (i : Nat) : Option Stream := (x.fills.find? (fun e => e.1 == i)).map (fun e => e.2)
/-- The drain stream of a code 0x070 to 0x073. -/
def Ctx.drain (x : Ctx) (i : Nat) : Option Stream := (x.drains.find? (fun e => e.1 == i)).map (fun e => e.2)

/-! ## Reading a source -/

/-- Vector register i of the context. -/
def Ctx.vreg (x : Ctx) (i : Nat) : VVal := NMap.get VVal.zero x.v i
/-- Mask i of the context. -/
def Ctx.mreg (x : Ctx) (i : Nat) : BitVec 1024 := NMap.get 0 x.m i
/-- Partial-sum latch i of the context. -/
def Ctx.psum (x : Ctx) (i : Nat) : PSum := NMap.get ⟨[], .raw⟩ x.ps i
/-- Scalar register i; x0 reads zero (R11). -/
def Ctx.xreg (x : Ctx) (i : Nat) : Word := if i = 0 then 0 else NMap.get 0 x.x i

/-- A mask as a vector of truth values (R29). -/
def maskVal (m : BitVec 1024) : VVal := ⟨lanesOf 1024 (fun k => if m.getLsbD k then 1 else 0), .mask, false⟩

/-- The phase-relative clock (R213). -/
def Ctx.pclk (x : Ctx) : BitVec 32 := (x.lclk - x.pb).setWidth 32

/-- A special source (R31). -/
def State.special (s : State) (n : Nat) : Word :=
  let x := s.cx
  match n with
  | 0x0C0 => x.lclk
  | 0x0C1 => x.pclk.setWidth 64
  | 0x0C2 => (NMap.get 0 x.lc 0).setWidth 64
  | 0x0C3 => (NMap.get 0 x.lc 1).setWidth 64
  | 0x0C4 => (NMap.get 0 x.lc 2).setWidth 64
  | 0x0C5 => coordWord s.iss.c
  | 0x0C6 => s.iss.l0.getD 0
  | _ => s.iss.l1.getD 0

/-- The value a legal source code yields at step 3 of R15 (R29 to R31). -/
def State.readSrc (s : State) (src : BitVec 10) : SrcVal :=
  let x := s.cx
  let n := src.toNat
  if n < 0x040 then .s (x.xreg n)
  else if n < 0x060 then .v (x.vreg (n - 0x040))
  else if n < 0x068 then .s (b2w (n == 0x060 || x.p.getLsbD (n - 0x060)))
  else if n < 0x070 then .v (maskVal (x.mreg (n - 0x068)))
  else if n < 0x078 then
    match x.fill (n - 0x070) with
    | some t => .v (fillValue x s.iss.tile0 t)
    | none => .v ⟨[], .raw, true⟩
  else if n < 0x080 then
    let q := x.psum (n - 0x078)
    .p q.row q.tag
  else if n < 0x0C0 then match x.port n with | .s w => .s w | .v v => .v v
  else if n < 0x200 then .s (s.special n)
  else .s (sext (BitVec.ofNat 64 n) 8)

/-- What reading a source does: a fill stream advances (R150); marked bytes taint the launch (R352). -/
def State.afterRead (s : State) (src : BitVec 10) : State :=
  let n := src.toNat
  if 0x070 ≤ n ∧ n < 0x078 then
    let x := s.cx
    match x.fill (n - 0x070) with
    | some t =>
      let s1 := (List.range 16).foldl (fun s r => s.taintTile s.iss.c (t.at (x.sbase t) r) 256) s
      s1.setCx { x with fills := NMap.put x.fills (n - 0x070) { t with pos := t.pos + 1 } }
    | none => s
  else s

/-- The checks of R38 that a source code carries: class 2 for an illegal code, or L0 or L1 without its LIMM, and
class 4 for a vector register outside the allocation (R12). -/
def State.srcCls (s : State) (src : BitVec 10) : List (Option Stop) :=
  let n := src.toNat
  let x := s.cx
  [chk (!legalSrc src || (n == 0x0C6 && s.iss.l0.isNone) || (n == 0x0C7 && s.iss.l1.isNone)) s.cls2,
   chk (decide (0x040 ≤ n) && decide (n < 0x060) &&
     !(decide (x.vbase ≤ n - 0x040) && decide (n - 0x040 < x.vbase + x.vcount))) s.cls4]

/-- What a read with a true guard meets: STREAM_BOUNDS (R150), then the freeze on a held range. -/
def State.srcOwn (s : State) (src : BitVec 10) : List (Option Stop) :=
  let n := src.toNat
  if 0x070 ≤ n ∧ n < 0x078 then
    let t := s.cx.fill (n - 0x070)
    [chk (streamEnd t) (s.own 0x0D), chk (streamHeld s.cx s.ck s.iss.gid t) (s.freezeAt 8)]
  else []

/-! ## Writing a destination -/

/-- Step 4 of R15 for one move: the value goes to its destination (R32, R34). -/
def State.writeDst (s : State) (dst : BitVec 10) (v : SrcVal) : State :=
  let x := s.cx
  let n := dst.toNat
  if n = 0 then s
  else if n < 0x040 then s.setCx { x with x := NMap.put x.x n v.toS }
  else if n < 0x060 then s.setCx { x with v := NMap.put x.v (n - 0x040) { (v.toV false) with unt := false } }
  else if n < 0x068 then
    s.setCx { x with p := if v.toS.getLsbD 0 then x.p ||| BitVec.twoPow 8 (n - 0x060)
                          else x.p &&& ~~~ BitVec.twoPow 8 (n - 0x060) }
  else if n < 0x070 then s.setCx { x with m := NMap.put x.m (n - 0x068) v.toM }
  else if n < 0x078 then
    match x.drain (n - 0x070) with
    | none => s
    | some t =>
      let w := v.toV true
      let y := { x with
        drains := NMap.put x.drains (n - 0x070) { t with pos := t.pos + 1 }
        ttag := NMap.put x.ttag t.treg (if w.unt then .raw else w.tag) }
      (s.setCx y).updCore (s.iss.c / 4) (fun k => drainWrite k t (x.sbase t) w)
  else if n < 0x080 then s.setCx { x with ps := NMap.put x.ps (n - 0x078) v.toP }
  else
    let u := (n - 0x080) / 2
    let val : PVal := match dstWd dst, v with
      | some .v, _ => .v (v.toV true)
      | none, .s w => .s w
      | none, _ => .v (v.toV true)
      | _, _ => .s v.toS
    if n % 2 = 0 then s.setCx { x with opA := NMap.put x.opA u val }
    else s.setCx { x with opB := NMap.put x.opB u val }

/-- The checks of R38 that a destination code carries, with the width rules of R10 and R34. -/
def State.dstCls (s : State) (src dst : BitVec 10) : List (Option Stop) :=
  let n := dst.toNat
  let x := s.cx
  [chk (!legalDst dst || (legalSrc src && widthBad (x.srcWd src) (dstWd dst))) s.cls2,
   chk (decide (0x040 ≤ n) && decide (n < 0x060) &&
     !(decide (x.vbase ≤ n - 0x040) && decide (n - 0x040 < x.vbase + x.vcount))) s.cls4]

/-- A move that would give a KB tag to a vector register or an operand latch (R40): FORMAT_MISMATCH. A port comes to hold one
where a tile register is retagged between the issue of a load and its landing; the check is made with those of class 5 (log 61). -/
def State.moveCls (s : State) (src dst : BitVec 10) : List (Option Stop) :=
  let n := src.toNat
  let d := dst.toNat
  let kb := decide (0x080 ≤ n) && decide (n < 0x0C0) && (match s.cx.port n with | .v v => v.tag.isKB | .s _ => false)
  [chk (kb && ((decide (0x040 ≤ d) && decide (d < 0x060)) || decide (0x080 ≤ d)) && legalSrc src && legalDst dst) s.cls5]

/-- What a write with a true guard meets at a drain stream: STREAM_BOUNDS, then the freeze on a held range (R150). -/
def State.dstOwn (s : State) (dst : BitVec 10) : List (Option Stop) :=
  let n := dst.toNat
  if 0x070 ≤ n ∧ n < 0x074 then
    let t := s.cx.drain (n - 0x070)
    [chk (streamEnd t) (s.own 0x0D), chk (streamHeld s.cx s.ck s.iss.gid t) (s.freezeAt 8)]
  else []

/-! ## Operand latches -/

/-- The S value in a latch .a of unit u (R8). -/
def Ctx.aS (x : Ctx) (u : Nat) : Word := match NMap.get (.s 0) x.opA u with | .s w => w | .v _ => 0
/-- The S value in a latch .b of unit u. -/
def Ctx.bS (x : Ctx) (u : Nat) : Word := match NMap.get (.s 0) x.opB u with | .s w => w | .v _ => 0
/-- The V value in a latch .a of unit u (R13: zero with tag RAW at task start). -/
def Ctx.aV (x : Ctx) (u : Nat) : VVal := match NMap.get (.v VVal.zero) x.opA u with | .v w => w | .s w => bcast w true
/-- The V value in a latch .b of unit u. -/
def Ctx.bV (x : Ctx) (u : Nat) : VVal := match NMap.get (.v VVal.zero) x.opB u with | .v w => w | .s w => bcast w true

/-- Planes whose copies the group being issued has begun. -/
def State.freshCopies (s : State) (c : Nat) : List Nat :=
  (s.core (c / 4)).cmds.filterMap (fun m => if m.c = c ∧ m.gid = s.iss.gid then m.plane else none)

/-- A trigger move: its source is read, with the effects of the read, and discarded (R7); then the operation. -/
def trigger (s : State) (g : BitVec 4) (src : BitVec 10) (cls own : List (Option Stop)) (eff : State → State) :
    Host.Outcome State Fault Refusal :=
  issue s g (s.srcCls src ++ cls) (own ++ s.srcOwn src) (fun t => eff (t.afterRead src))

end Sys2Proof.Machine
end

