-- ==== Sys2Proof/Machine/Commands.lean ====
section
/-! DEFINITION. Engine commands at issue, whatever unit issues them: the places they name, their admission (R142), and
their acceptance as pending commands of the core. -/

namespace Sys2Proof.Machine

/-- A range of a tile register's window: the register has no window, or the range runs past it (R142). -/
def Ctx.tileOut (x : Ctx) (t off n : Nat) : Bool :=
  match x.window t with
  | some w => decide (w.size < off + n)
  | none => true
/-- Tile-SRAM offset of an offset in a tile register's window. -/
def Ctx.tileAt (x : Ctx) (t off : Nat) : Nat := (match x.window t with | some w => w.off | none => 0) + off

/-- The freezes of R142: 1,024 commands pending on the core, or the completion word named by another pending command. -/
def admission (s : State) (cw : Nat) : Option Stop :=
  let l := s.ck.cmds.filter (fun m => m.gid != s.iss.gid)
  chk (decide (1024 ≤ l.length) || l.any (fun m => m.cw == cw)) (s.freezeAt 10)

/-- The checks that R146 makes on a completion word, in order. -/
def cwChecks (s : State) (off : Nat) : List (Option Stop) :=
  [chk (!s.cx.inWindow off 8) (s.own 9), chk (off % 8 != 0) (s.own 0x0C)]

/-- A command of the issuing context, with its port and two words. -/
def State.newCmd (s : State) (port : Nat) (a b : Word) : Cmd :=
  let x := s.cx
  { id := s.nextId, gid := s.iss.gid, age := x.age, c := s.iss.c, task := x.task.getD ⟨0, 0⟩, spid := x.spid,
    port := port, a := a, b := b, info := 0, ranges := [], cw := 0, bay := none, plane := none, nsec := 0, done := [],
    fails := [], retried := [], moored := [], delivered := 0, prog := 0, ranks := [], fin := none, parked := false,
    ended := none, data := [], away := [], lost := [] }

/-- The command becomes pending (R142). -/
def State.accept (s : State) (k : Cmd) : State :=
  { (s.setCk { s.ck with cmds := s.ck.cmds ++ [k] }) with nextId := s.nextId + 1 }

/-- A count field where 0 means 1,024 sectors (R140, R141). -/
def secs (n : Nat) : Nat := if n = 0 then 1024 else n

end Sys2Proof.Machine
end

