-- ==== Sys2Proof/Machine/Float.lean ====
section
/-! DEFINITION. The number formats of R39 to R47 as exact values, rounding, overflow and conversion (R48 to R52), and
the sums, products and comparisons every unit shares (R43, R53 to R56). -/

namespace Sys2Proof.Machine

/-- An element's value: NaN, an infinity, or (−1)^neg × m × 2^e exactly, zeros with their sign. -/
inductive FV where
  | nan
  | inf (neg : Bool)
  | fin (neg : Bool) (m : Nat) (e : Int)
  deriving DecidableEq, Repr

/-! ## Formats -/

/-- Fraction bits of a binary floating-point format (R42). -/
def fracBits : Fmt → Nat
  | .fp32 => 23 | .bf16 => 7 | .fp16 => 10 | .e5m2 => 2 | .e4m3 => 3 | .e2m1 => 1 | _ => 0
/-- Exponent bits of a binary floating-point format (R42). -/
def expBits : Fmt → Nat
  | .fp32 => 8 | .bf16 => 8 | .fp16 => 5 | .e5m2 => 5 | .e4m3 => 4 | .e2m1 => 2 | _ => 0
/-- Exponent bias (R42). -/
def expBias : Fmt → Nat
  | .fp32 => 127 | .bf16 => 127 | .fp16 => 15 | .e5m2 => 15 | .e4m3 => 7 | .e2m1 => 1 | _ => 0
/-- Code of the largest finite value (R42). -/
def maxCode : Fmt → Nat
  | .fp32 => 0x7F7FFFFF | .bf16 => 0x7F7F | .fp16 => 0x7BFF | .e5m2 => 0x7B | .e4m3 => 0x7E | .e2m1 => 0x7 | _ => 0
/-- Code of the canonical NaN (R42); E2M1 has none and takes +0 (R50). -/
def nanCode : Fmt → Nat
  | .fp32 => 0x7FC00000 | .bf16 => 0x7FC0 | .fp16 => 0x7E00 | .e5m2 => 0x7E | .e4m3 => 0x7F | _ => 0
/-- The format has infinities (R42). -/
def hasInf : Fmt → Bool
  | .fp32 | .bf16 | .fp16 | .e5m2 => true
  | _ => false
/-- A binary floating-point format. -/
def isFloat : Fmt → Bool
  | .fp32 | .bf16 | .fp16 | .e5m2 | .e4m3 | .e2m1 => true
  | _ => false
/-- An integer format (BIN8 and MASK apart). -/
def isInt : Fmt → Bool
  | .int32 | .int16 | .int8 | .uint8 => true
  | _ => false
/-- Element width in bits of a lane format (R39). -/
def width : Fmt → Nat
  | .bf16 | .fp16 | .int16 => 16
  | .e5m2 | .e4m3 | .int8 | .uint8 | .bin8 => 8
  | .e2m1 => 4
  | _ => 32
/-- Elements that one lane holds (R39, R41). -/
def perLane (f : Fmt) : Nat := 32 / width f
/-- Element k of a lane (R41). -/
def elem (f : Fmt) (x : Lane) (k : Nat) : Nat := fld x (width f * k) (width f)
/-- The lane whose element k is `g k` (R41). -/
def packLane (f : Fmt) (g : Nat → Nat) : Lane :=
  BitVec.ofNat 32 (((List.range (perLane f)).map (fun k => (g k % 2 ^ width f) * 2 ^ (width f * k))).foldl (· + ·) 0)

/-! ## Reading a code -/

/-- The exact value of a floating-point code (R42). -/
def decF (f : Fmt) (c : Nat) : FV :=
  let fb := fracBits f
  let fr := c % 2 ^ fb
  let e := c >>> fb % 2 ^ expBits f
  let neg := c >>> (fb + expBits f) % 2 == 1
  if f == .e4m3 && e == 15 && fr == 7 then .nan
  else if hasInf f && e == 2 ^ expBits f - 1 then (if fr = 0 then .inf neg else .nan)
  else if e = 0 then .fin neg fr (1 - expBias f - fb)
  else .fin neg (2 ^ fb + fr) (e - expBias f - fb)

/-- The two's-complement value of the low `w` bits of a number. -/
def toSigned (w c : Nat) : Int :=
  let v := c % 2 ^ w
  if v < 2 ^ (w - 1) then (v : Int) else (v : Int) - 2 ^ w

/-- An integer as an exact value. -/
def FV.ofInt (i : Int) : FV := .fin (decide (i < 0)) i.natAbs 0

/-- The exact value of an element (R42, R44, R51). -/
def decElem (f : Fmt) (c : Nat) : FV :=
  match f with
  | .int32 => FV.ofInt (toSigned 32 c)
  | .int16 => FV.ofInt (toSigned 16 c)
  | .int8 => FV.ofInt (toSigned 8 c)
  | .uint8 => .fin false (c % 256) 0
  | .bin8 => if c % 256 = 255 then .nan else .fin false (c % 256) 0
  | .mask => .fin false (c % 2) 0
  | _ => decF f c

/-! ## Rounding (R49) and overflow (R50) -/

/-- Bits of a number: 0 for 0. -/
def bitLen (m : Nat) : Nat := if m = 0 then 0 else Nat.log2 m + 1

/-- m / 2^sh rounded to a whole number under RM for a sign; `top`, where not 0, is a value whose tie goes up as from odd (R49: the
value one unit beyond the largest finite counts as even). Of E4M3 the largest finite value, 448, is even as well: the tie at 464
goes beyond it, DESIGN CHOICE (log 61). -/
def roundShift (neg : Bool) (m sh rm top : Nat) : Nat :=
  let q := m >>> sh
  let r := m % 2 ^ sh
  let up := match rm with
    | 0 => decide (2 * r > 2 ^ sh) || (decide (2 * r = 2 ^ sh) && decide (0 < sh) && (q % 2 == 1 || (top != 0 && q == top)))
    | 1 => false
    | 2 => neg && r != 0
    | _ => !neg && r != 0
  if up then q + 1 else q

/-- The sign bit of a format in place. -/
def signBit (f : Fmt) (neg : Bool) : Nat := if neg then 2 ^ (fracBits f + expBits f) else 0

/-- The code where a finite value's magnitude rounds beyond the largest finite, or an infinity stands (R50). -/
def overflowCode (f : Fmt) (neg : Bool) (rm : Nat) (sat : Bool) : Nat :=
  let away := rm == 0 || (rm == 3 && !neg) || (rm == 2 && neg)
  if sat || f == .e2m1 || !away then signBit f neg + maxCode f
  else if hasInf f then signBit f neg + (2 ^ expBits f - 1) * 2 ^ fracBits f
  else nanCode f

/-- A value rounded once to a floating-point format (R49, R50); MOD as R48 lays it out. -/
def encF (f : Fmt) (mod : Nat) (x : FV) : Nat :=
  let rm := mod % 4
  let sat := decide (4 ≤ mod % 8)
  match x with
  | .nan => nanCode f
  | .inf neg => overflowCode f neg 0 sat
  | .fin neg m e =>
    if m = 0 then signBit f neg
    else
      let fb : Int := fracBits f
      let u : Int := max (e + bitLen m - 1 - fb) (1 - expBias f - fb)
      let top := if maxCode f % 2 = 0 then 2 ^ fracBits f + maxCode f % 2 ^ fracBits f else 0
      let topHere := if u + fb + expBias f = (maxCode f >>> fracBits f : Nat) then top else 0
      let q := if u ≤ e then m * 2 ^ (e - u).toNat else roundShift neg m (u - e).toNat rm topHere
      let code := (u + fb + expBias f - 1).toNat * 2 ^ fracBits f + q
      if q ≠ 0 ∧ maxCode f < code then overflowCode f neg rm sat
      else signBit f neg + (if q = 0 then 0 else code)

/-- A value rounded to a whole number under RM (R49). -/
def roundInt (rm : Nat) (x : FV) : Int :=
  match x with
  | .fin neg m e =>
    let q := if 0 ≤ e then m * 2 ^ e.toNat else roundShift neg m (-e).toNat rm 0
    if neg then -(q : Int) else q
  | _ => 0

/-- Least value of an integer format. -/
def intMin (f : Fmt) : Int := if f == .uint8 then 0 else -(2 ^ (width f - 1) : Int)
/-- Greatest value of an integer format. -/
def intMax (f : Fmt) : Int := if f == .uint8 then 255 else (2 ^ (width f - 1) : Int) - 1
/-- A whole number reduced modulo 2^w. -/
def wrapI (w : Nat) (i : Int) : Nat := (i % (2 ^ w : Int)).toNat
/-- A whole number clamped into a range. -/
def clampI (lo hi i : Int) : Int := max lo (min hi i)

/-- Conversion to an integer or bin target (R52). -/
def encI (f : Fmt) (mod : Nat) (x : FV) : Nat :=
  let sat := decide (4 ≤ mod % 8)
  match f, x with
  | .bin8, .nan => 255
  | .bin8, .inf neg => if sat then (if neg then 0 else 254) else 255
  | .bin8, v =>
    let i := roundInt (mod % 4) v
    if 0 ≤ i ∧ i ≤ 254 then i.toNat else if sat then (clampI 0 254 i).toNat else 255
  | _, .nan => 0
  | f, .inf neg => if sat then wrapI (width f) (if neg then intMin f else intMax f) else 0
  | f, v =>
    let i := roundInt (mod % 4) v
    wrapI (width f) (if sat then clampI (intMin f) (intMax f) i else i)

/-- A value rounded once to an element format (R51, R52). -/
def encElem (f : Fmt) (mod : Nat) (x : FV) : Nat := if isFloat f then encF f mod x else encI f mod x

/-! ## Exact arithmetic (R43) -/

/-- The sign of a value. -/
def FV.neg? : FV → Bool
  | .inf n => n
  | .fin n _ _ => n
  | .nan => false
/-- The value is NaN. -/
def FV.isNan : FV → Bool
  | .nan => true
  | _ => false
/-- The value is zero. -/
def FV.isZero : FV → Bool
  | .fin _ 0 _ => true
  | _ => false
/-- The value with its sign changed. -/
def FV.negate : FV → FV
  | .nan => .nan
  | .inf n => .inf !n
  | .fin n m e => .fin (!n) m e

/-- The exact product; 0 × infinity is NaN. A product of zero and a negative integer is −0, as one of elements with signs:
DESIGN CHOICE, since R53 asks for the sign of a zero product and R159 gives none to integers (log 51). -/
def FV.mul : FV → FV → FV
  | .nan, _ | _, .nan => .nan
  | .inf a, .inf b => .inf (a != b)
  | .inf a, .fin b m _ | .fin b m _, .inf a => if m = 0 then .nan else .inf (a != b)
  | .fin a m e, .fin b k d => .fin (a != b) (m * k) (e + d)

/-- The least exponent of the finite terms. -/
def minExp : List FV → Int → Int
  | [], d => d
  | .fin _ m e :: t, d => minExp t (if m = 0 then d else min e d)
  | _ :: t, d => minExp t d

/-- The signed sum of the finite terms at exponent `d`. -/
def sumAt : List FV → Int → Int
  | [], _ => 0
  | .fin n m e :: t, d => (if n then -((m * 2 ^ (e - d).toNat : Nat) : Int) else ((m * 2 ^ (e - d).toNat : Nat) : Int)) + sumAt t d
  | _ :: t, d => sumAt t d

/-- The exact sum (R43, R53): NaN for a NaN or for infinities of both signs; an exact zero is −0 only where every
term is −0. -/
def sumFV (l : List FV) : FV :=
  if l.any FV.isNan then .nan
  else
    let pos := l.any (fun x => x == .inf false)
    let neg := l.any (fun x => x == .inf true)
    if pos && neg then .nan
    else if pos then .inf false
    else if neg then .inf true
    else
      let d := minExp l 0
      let t := sumAt l d
      if t = 0 then .fin (!l.isEmpty && l.all (fun x => x.isZero && x.neg?)) 0 0
      else .fin (decide (t < 0)) t.natAbs d

/-- The sum under a rounding direction: under rounding toward negative an exact zero of terms that are not all +0 is −0
(R43). -/
def sumRM (rm : Nat) (l : List FV) : FV :=
  match sumFV l with
  | .fin false 0 d => .fin (rm % 4 == 2 && !l.all (fun x => x.isZero && !x.neg?)) 0 d
  | v => v

/-- Order of two values that are no NaN: −1, 0 or 1. -/
def FV.cmp : FV → FV → Int
  | .inf a, .inf b => if a = b then 0 else if a then -1 else 1
  | .inf a, _ => if a then -1 else 1
  | _, .inf b => if b then 1 else -1
  | x, y =>
    match sumFV [x, y.negate] with
    | .fin n m _ => if m = 0 then 0 else if n then -1 else 1
    | _ => 0

/-- a < b: false for a NaN. -/
def FV.lt (a b : FV) : Bool := !a.isNan && !b.isNan && a.cmp b == -1
/-- a ≤ b: false for a NaN. -/
def FV.le (a b : FV) : Bool := !a.isNan && !b.isNan && a.cmp b != 1
/-- a = b, +0 = −0: false for a NaN. -/
def FV.feq (a b : FV) : Bool := !a.isNan && !b.isNan && a.cmp b == 0

/-- The smaller of two values, −0 below +0; NaN if either is NaN (R60, R79). -/
def FV.min2 (a b : FV) : FV :=
  if a.isNan || b.isNan then .nan
  else if a.lt b then a else if b.lt a then b else if a.neg? then a else b
/-- The larger of two values, +0 above −0; NaN if either is NaN (R60, R79). -/
def FV.max2 (a b : FV) : FV :=
  if a.isNan || b.isNan then .nan
  else if a.lt b then b else if b.lt a then a else if a.neg? then b else a

/-- a + b rounded to the format (R43). -/
def fadd (f : Fmt) (a b : Nat) : Nat := encF f 0 (sumFV [decF f a, decF f b])
/-- a − b rounded to the format. -/
def fsub (f : Fmt) (a b : Nat) : Nat := encF f 0 (sumFV [decF f a, (decF f b).negate])
/-- a × b rounded to the format. -/
def fmul (f : Fmt) (a b : Nat) : Nat := encF f 0 ((decF f a).mul (decF f b))
/-- The smaller of a and b, in the format. -/
def fmin (f : Fmt) (a b : Nat) : Nat := encF f 0 ((decF f a).min2 (decF f b))
/-- The larger of a and b, in the format. -/
def fmax (f : Fmt) (a b : Nat) : Nat := encF f 0 ((decF f a).max2 (decF f b))

/-! ## Quotient and square root with a sticky last bit -/

/-- a / b of finite non-zero values, to 64 bits and a sticky bit below them, so that one rounding of it is one
rounding of the quotient. -/
def FV.quot (a b : FV) : FV :=
  match a, b with
  | .fin s m e, .fin t k d =>
    let sh := 192 + bitLen k
    let q := m * 2 ^ sh / k
    let r := m * 2 ^ sh % k
    .fin (s != t) (2 * q + (if r = 0 then 0 else 1)) (e - d - sh - 1)
  | _, _ => .nan

/-- Whole square root, one bit a step from bit `i` down. -/
def isqrtFrom : Nat → Nat → Nat → Nat
  | 0, _, r => r
  | i + 1, n, r => if (r + 2 ^ i) * (r + 2 ^ i) ≤ n then isqrtFrom i n (r + 2 ^ i) else isqrtFrom i n r

/-- The square root of a positive finite value, with a sticky bit below it. -/
def FV.root (a : FV) : FV :=
  match a with
  | .fin _ m e =>
    let odd : Nat := (e % 2).toNat
    let n := m * 2 ^ (128 + odd)
    let r := isqrtFrom (bitLen n) n 0
    .fin false (2 * r + (if r * r = n then 0 else 1)) ((e - odd - 128) / 2 - 1)
  | _ => .nan

/-! ## KB blocks (R45 to R47) -/

/-- Magnitude bits m of a KB format. -/
def kbM : Fmt → Nat
  | .kb9 => 7 | .kb6 => 4 | _ => 2
/-- Bytes of a block. -/
def kbBytes : Fmt → Nat
  | .kb9 => 18 | .kb6 => 12 | _ => 8

/-- Element i of a block record read as one number (R45, R46). -/
def kbElem (f : Fmt) (r : Nat) (i : Nat) : FV :=
  let m := kbM f
  let e := r % 256
  let sg := r >>> (8 + 2 * (i / 4)) % 4
  let fl := r >>> (16 + (m + 1) * i) % 2 ^ (m + 1)
  if e = 255 then .nan
  else .fin (fl >>> m == 1) (fl % 2 ^ m) (e - 127 - sg - (m - 1))

/-- q of R47: |x| in units of 2^(E − 127 − s − (m − 1)), to nearest even. -/
def kbQ (m : Nat) (x : FV) (e s : Nat) : Nat :=
  match x with
  | .fin _ k d =>
    let u : Int := (e : Int) - 127 - s - (m - 1)
    if u ≤ d then k * 2 ^ (d - u).toNat else roundShift false k (u - d).toNat 0 0
  | _ => 0

/-- Sixteen values as a KB block record (R47). -/
def kbEncode (f : Fmt) (sat : Bool) (xs : List FV) : Nat :=
  let m := kbM f
  let mx := 2 ^ m - 1
  let isInf (x : FV) := match x with | .inf _ => true | _ => false
  if xs.any FV.isNan || (!sat && xs.any isInf) then 255
  else
    let ys := xs.map (fun x => match x with
      | .inf n => FV.fin n mx (254 - 127 - (m - 1))
      | v => v)
    let fits (e : Nat) := ys.all (fun x => decide (kbQ m x e 0 ≤ mx))
    match (List.range 255).find? fits, sat with
    | none, false => 255
    | found, _ =>
      let e := found.getD 254
      let at' (i : Nat) := ys.getD i (.fin false 0 0)
      let sig (j : Nat) : Nat :=
        let ok (s : Nat) := (List.range 4).all (fun t => decide (kbQ m (at' (4 * j + t)) e s ≤ mx))
        if ok 3 then 3 else if ok 2 then 2 else if ok 1 then 1 else 0
      let sgs := (List.range 4).foldl (fun a j => a + sig j * 2 ^ (8 + 2 * j)) 0
      let els := (List.range 16).foldl (fun a i =>
        a + (min (kbQ m (at' i) e (sig (i / 4))) mx + (if (at' i).neg? then 2 ^ m else 0)) * 2 ^ (16 + (m + 1) * i)) 0
      e + sgs + els

end Sys2Proof.Machine
end

