-- ==== Sys2Proof/Machine/Ls.lean ====
section
/-! DEFINITION. The tile-SRAM unit ls (R130 to R133), the berth load (R134 to R138), and stream binding by str (R148,
R149). -/

namespace Sys2Proof.Machine

/-! ## Tile SRAM -/

/-- Tile register that an ls address word names (R130). -/
def lsTreg (w : Word) : Nat := fld w 16 6
/-- Window offset of an ls address word. -/
def lsOff (w : Word) : Nat := fld w 0 16
/-- Tile-SRAM offset of the access. -/
def Ctx.lsAt (x : Ctx) (w : Word) : Nat := (match x.window (lsTreg w) with | some v => v.off | none => 0) + lsOff w
/-- The access runs past its window, or the tile register has none (R130). -/
def Ctx.lsOut (x : Ctx) (w : Word) (size : Nat) : Bool :=
  match x.window (lsTreg w) with
  | some v => decide (v.size < lsOff w + size)
  | none => true

/-- The checks of R130 and the freeze of R133. -/
def lsOwn (s : State) (size align : Nat) : List (Option Stop) :=
  let w := s.cx.aS 8
  [chk (fld w 22 42 != 0) (s.own 1), chk (s.cx.lsOut w size) (s.own 9), chk (lsOff w % align != 0) (s.own 0x0C),
   chk (s.ck.held s.iss.gid (s.cx.lsAt w) size) (s.freezeAt 8)]

/-- The latch ls.b holds a V value. At task start the latch and the port ls.q, whose width is that of the value they hold,
hold an S zero: DESIGN CHOICE, since R13 gives the value zero and no width (log 50). -/
def Ctx.lsBV (x : Ctx) : Bool := match NMap.get (.s 0) x.opB 8 with | .v _ => true | .s _ => false

/-- A scalar load: performed and landed at +5 (R131, R132). -/
def lsLoad (size : Nat) (sign : Bool) (g : BitVec 4) (src : BitVec 10) (s : State) : Host.Outcome State Fault Refusal :=
  trigger s g src [] (lsOwn s size size) (fun t => t.fly 5 (.lsLoad (t.cx.lsAt (t.cx.aS 8)) size sign))

/-- A scalar store: performed at +5 (R131, R132); a V value in ls.b is ILLEGAL_ENCODING of class 2 (R34). -/
def lsStore (size : Nat) (g : BitVec 4) (src : BitVec 10) (s : State) : Host.Outcome State Fault Refusal :=
  trigger s g src [chk s.cx.lsBV s.cls2] (lsOwn s size size)
    (fun t => t.fly 5 (.lsStore (t.cx.lsAt (t.cx.aS 8)) size (t.cx.bS 8)))

/-- ls.ld8u (R131). -/
def execLsLd8u (g : BitVec 4) (src : BitVec 10) (s : State) : Host.Outcome State Fault Refusal := lsLoad 1 false g src s

/-- ls.ld16u (R131). -/
def execLsLd16u (g : BitVec 4) (src : BitVec 10) (s : State) : Host.Outcome State Fault Refusal := lsLoad 2 false g src s

/-- ls.ld32u (R131). -/
def execLsLd32u (g : BitVec 4) (src : BitVec 10) (s : State) : Host.Outcome State Fault Refusal := lsLoad 4 false g src s

/-- ls.ld64 (R131). -/
def execLsLd64 (g : BitVec 4) (src : BitVec 10) (s : State) : Host.Outcome State Fault Refusal := lsLoad 8 false g src s

/-- ls.ld8s (R131). -/
def execLsLd8s (g : BitVec 4) (src : BitVec 10) (s : State) : Host.Outcome State Fault Refusal := lsLoad 1 true g src s

/-- ls.ld16s (R131). -/
def execLsLd16s (g : BitVec 4) (src : BitVec 10) (s : State) : Host.Outcome State Fault Refusal := lsLoad 2 true g src s

/-- ls.ld32s (R131). -/
def execLsLd32s (g : BitVec 4) (src : BitVec 10) (s : State) : Host.Outcome State Fault Refusal := lsLoad 4 true g src s

/-- ls.st8 (R131). -/
def execLsSt8 (g : BitVec 4) (src : BitVec 10) (s : State) : Host.Outcome State Fault Refusal := lsStore 1 g src s

/-- ls.st16 (R131). -/
def execLsSt16 (g : BitVec 4) (src : BitVec 10) (s : State) : Host.Outcome State Fault Refusal := lsStore 2 g src s

/-- ls.st32 (R131). -/
def execLsSt32 (g : BitVec 4) (src : BitVec 10) (s : State) : Host.Outcome State Fault Refusal := lsStore 4 g src s

/-- ls.st64 (R131). -/
def execLsSt64 (g : BitVec 4) (src : BitVec 10) (s : State) : Host.Outcome State Fault Refusal := lsStore 8 g src s

/-- ls.vld: 4,096 bytes as a V value with the tile register's tag, at +5 (R131, R132). A KB tag, which no result port
carries, is FORMAT_MISMATCH (R40). The check comes with those before any freeze: DESIGN CHOICE, since R40 says only that it is
made at issue (log 61). -/
def execLsVld (g : BitVec 4) (src : BitVec 10) (s : State) : Host.Outcome State Fault Refusal :=
  trigger s g src [] (lsOwn s 4096 64 ++ [chk (s.cx.ttagOf (lsTreg (s.cx.aS 8))).isKB (s.own 3)]) (fun t =>
    let w := t.cx.aS 8
    t.fly 5 (.lsVld (lsTreg w) (t.cx.lsAt w)))

/-- ls.vst: 4,096 bytes from ls.b, an S value as an untagged broadcast, at +5 (R34, R131, R132). -/
def execLsVst (g : BitVec 4) (src : BitVec 10) (s : State) : Host.Outcome State Fault Refusal :=
  trigger s g src [] (lsOwn s 4096 64) (fun t =>
    let w := t.cx.aS 8
    t.fly 5 (.lsVst (lsTreg w) (t.cx.lsAt w) (t.cx.bV 8)))

/-- A scalar store takes effect (R132). -/
def landStore (s : State) (c addr size : Nat) (w : Word) : State :=
  s.updCore (c / 4) (fun k => k.putTile addr (leBytes size w.toNat))

/-- A vector store takes effect, with the tile register's tag (R131, R132). -/
def landVst (s : State) (c treg addr : Nat) (v : VVal) : State :=
  (s.updCore (c / 4) (fun k => k.putTile addr (bytesOfLanes 1024 v.lanes))).updCtx c
    (fun x => { x with ttag := NMap.put x.ttag treg (if v.unt then .raw else v.tag) })

/-- A scalar load takes its bytes and lands in ls.q (R131, R132). -/
def landLoad (s : State) (c addr size : Nat) (sign : Bool) : State :=
  let w : Word := BitVec.ofNat 64 (Mem.readLE (s.core (c / 4)).tile addr size)
  (s.taintTile c addr size).updCtx c
    (fun x => { x with resQ := NMap.put x.resQ 8 (.s (if sign then sext w (8 * size - 1) else w)) })

/-- A vector load takes its bytes and the tile register's tag as it stands then (R131, R132). -/
def landVld (s : State) (c treg addr : Nat) : State :=
  let bs := Mem.read (s.core (c / 4)).tile addr 4096
  (s.taintTile c addr 4096).updCtx c
    (fun x => { x with resQ := NMap.put x.resQ 8 (.v ⟨lanesOfBytes 1024 bs, x.ttagOf treg, false⟩) })

/-! ## Berth loads -/

/-- Bytes that a berth control word asks for (R134). -/
def berthSize (w : Word) : Nat := if fld w 12 3 = 4 then 4096 else 2 ^ fld w 12 3
/-- The landing register code. -/
def berthReg (w : Word) : Nat := fld w 21 7
/-- The control word breaks the first check of R135. -/
def berthBad (w : Word) : Bool :=
  let size := fld w 12 3
  let reg := berthReg w
  let scope := fld w 28 4
  fld w 33 31 != 0 || decide (5 ≤ size) || fld w 0 12 == 0 || decide (10 < scope) || (scope == 5 && bit w 32) ||
  reg == 0 || decide (0x5F < reg) || (decide (reg < 0x40) && size == 4) || (decide (0x40 ≤ reg) && decide (size < 4)) ||
  (fld w 16 5 != 0 && decide (size < 4))
/-- The number of berths the context occupies. One is occupied until its landing cycle, whatever traps and saves come
between: DESIGN CHOICE between R136, which says so and that OCCUPANCY is the same on every run, and R138, which frees the
berth of a load that passes into the snapshot buffer (log 49). -/
def Ctx.berths (x : Ctx) : Nat := (x.snap.filter (fun f => match f.item with | .berth _ _ _ _ => true | _ => false)).length
/-- A tag code that is reserved or KB (R40). -/
def tagRefused (n : Nat) : Bool := decide (13 ≤ n)

/-- ls.berth: the checks of R135 in order, then a berth is occupied and the load enters the load queue. -/
def execLsBerth (g : BitVec 4) (src : BitVec 10) (s : State) : Host.Outcome State Fault Refusal :=
  let a := s.cx.aS 8
  let w := s.cx.bS 8
  let reg := berthReg w
  trigger s g src [chk s.cx.lsBV s.cls2]
    [chk (berthBad w) (s.own 1),
     chk (decide (0x40 ≤ reg) && !(decide (s.cx.vbase ≤ reg - 0x40) && decide (reg - 0x40 < s.cx.vbase + s.cx.vcount))) (s.own 9),
     chk (fld w 12 3 == 4 && tagRefused (fld w 16 5)) (s.own 3),
     chk (a.toNat % (if fld w 12 3 = 4 then 64 else 2 ^ fld w 12 3) != 0) (s.own 0x0C),
     chk (decide (16 ≤ s.cx.berths)) (s.own 4)]
    (fun t =>
      let t1 := t.setCx (t.cx.enqLoad .berth t.nextId (bit w 32) (fld w 28 4))
      t1.fly (fld w 0 12) (.berth a w .absent false))

/-! ## Streams -/

/-- Least and greatest row offset of a walk, from the extents and the signs of the strides (R149). -/
def walkLo (t : Stream) : Int :=
  (fld t.desc 48 16 : Int) + ((List.range 4).map (fun i => min 0 (((t.ext i : Int) - 1) * sfld t.desc (128 + 32 * i)))).foldl (· + ·) 0
/-- See `walkLo`. -/
def walkHi (t : Stream) : Int :=
  (fld t.desc 48 16 : Int) + ((List.range 4).map (fun i => max 0 (((t.ext i : Int) - 1) * sfld t.desc (128 + 32 * i)))).foldl (· + ·) 0

/-- Binding of a fill or drain stream (R149): the place of the descriptor, the freeze on a held range, then the
descriptor's contents, read at step 3. The stream is bound after the group (R35). -/
def strTrig (fill : Bool) (n : Nat) (g : BitVec 4) (src : BitVec 10) (s : State) : Host.Outcome State Fault Refusal :=
  let off := (s.cx.aS 9).toNat
  let d : BitVec 256 := BitVec.ofNat 256 (Mem.readLE s.iss.tile0 off 32)
  let t : Stream := ⟨d, fld (s.cx.bS 9) 0 32⟩
  let w := s.cx.window t.treg
  let size : Int := match w with | some v => (v.size : Int) | none => 0
  let fmt := fld d 16 5
  trigger s g src []
    [chk (!s.cx.inWindow off 32) (s.own 9), chk (off % 32 != 0) (s.own 0x0C),
     chk (s.ck.held s.iss.gid off 32) (s.freezeAt 8),
     chk w.isNone (s.late 9),
     chk (fld d 48 16 % 64 != 0 || (List.range 4).any (fun i => fld d (128 + 32 * i) 32 % 64 != 0)) (s.late 0x0C),
     chk (fill && (tagRefused fmt || fmt == 0 || fmt == 12)) (s.late 3),
     chk ((List.range 4).any (fun i => t.ext i == 0) || decide (walkLo t < 0) || decide (size - 256 < walkHi t)) (s.late 0x0D)]
    (fun u => { u with iss := { u.iss with binds := u.iss.binds ++ [(fill, n, t)] } })

/-- str.bindfN (R149). -/
def execStrBindf (g : BitVec 4) (src : BitVec 10) (n : BitVec 3) (s : State) : Host.Outcome State Fault Refusal := strTrig true n.toNat g src s

/-- str.binddN (R149). -/
def execStrBindd (g : BitVec 4) (src : BitVec 10) (n : BitVec 2) (s : State) : Host.Outcome State Fault Refusal := strTrig false n.toNat g src s

end Sys2Proof.Machine
end

