-- ==== Sys2Proof/Machine/Eng.lean ====
section
/-! DEFINITION. The transfer engine's triggers at issue: tile and Hold loads, tile stores, waits and conversions (R139 to
R147), aqueduct exchanges and peer transfers (R258 to R270), and near-memory commands (R271 to R275). What the commands
do once accepted is in Engine.lean, Aqueduct.lean and NearMem.lean. -/

namespace Sys2Proof.Machine

/-- A command is accepted: it enters the load queue, the store queue or none, becomes pending, and eng.q lands its
completion word's offset at +1 (R139, R142, R258, R271). -/
def fireCmd (queue : Option Bool) (ord : Bool) (scope : Nat) (k : Cmd) (t : State) : State :=
  let kind := if 0x358 ≤ k.port ∧ k.port ≤ 0x35C then QKind.nm else QKind.cmd
  let t1 := match queue with
    | none => t
    | some true => t.setCx (t.cx.enqLoad kind t.nextId ord scope)
    | some false => t.setCx (t.cx.enqStore kind t.nextId ord scope)
  (t1.accept k).landS 1 0x09A (BitVec.ofNat 64 k.cw)

/-- Offset of the completion word that a command word names: 8 × CWOFF. -/
def cwOff (w : Word) : Nat := 8 * fld w 46 18

/-! ## Tile and Hold transfers (R140 to R142) -/

/-- Sectors a tile command word asks for (R140). -/
def tileSecs (w : Word) : Nat := secs (fld w 26 10)
/-- Window offset of a tile command word, in bytes. -/
def tileOff (w : Word) : Nat := 64 * fld w 36 10
/-- Tile register of a tile command word. -/
def tileReg (w : Word) : Nat := fld w 0 6

/-- eng.tld and eng.tst: the checks of R142 in order, then acceptance. -/
def tileCmd (port : Nat) (load : Bool) (g : BitVec 4) (src : BitVec 10) (s : State) : Host.Outcome State Fault Refusal :=
  let a := s.cx.aS 13
  let w := s.cx.bS 13
  let scope := fld w 21 4
  trigger s g src []
    [chk (fld w 6 10 != 0 || decide (10 < scope) || (scope == 5 && bit w 25)) (s.own 1),
     chk (s.cx.tileOut (tileReg w) (tileOff w) (64 * tileSecs w) || !s.cx.inWindow (cwOff w) 8) (s.own 9),
     chk (load && tagRefused (fld w 16 5)) (s.own 3), chk (a.toNat % 64 != 0) (s.own 0x0C), admission s (cwOff w)]
    (fun t => fireCmd (some load) (bit w 25) scope
      { t.newCmd port a w with
        ranges := [(t.cx.tileAt (tileReg w) (tileOff w), 64 * tileSecs w)], cw := cwOff w, nsec := tileSecs w } t)

/-- eng.tld (R140). -/
def execEngTld (g : BitVec 4) (src : BitVec 10) (s : State) : Host.Outcome State Fault Refusal := tileCmd 0x340 true g src s

/-- eng.tst (R140). -/
def execEngTst (g : BitVec 4) (src : BitVec 10) (s : State) : Host.Outcome State Fault Refusal := tileCmd 0x341 false g src s

/-- eng.hld (R141, R142); it is plain and takes no scope. -/
def execEngHld (g : BitVec 4) (src : BitVec 10) (s : State) : Host.Outcome State Fault Refusal :=
  let a := s.cx.aS 13
  let w := s.cx.bS 13
  let n := secs (fld w 23 10)
  trigger s g src []
    [chk (fld w 21 2 != 0 || fld w 4 12 != 0) (s.own 1),
     chk (!s.cx.bays.getLsbD (fld w 0 4) || decide (6144 < fld w 33 13 + n) || !s.cx.inWindow (cwOff w) 8) (s.own 9),
     chk (Fmt.ofCode (fld w 16 5)).isNone (s.own 3), chk (a.toNat % 64 != 0) (s.own 0x0C), admission s (cwOff w)]
    (fun t => fireCmd (some true) false 0 { t.newCmd 0x342 a w with bay := some (fld w 0 4), cw := cwOff w, nsec := n } t)

/-- eng.wait (R146): the two checks, the freeze while a pending command names the word, then the word at +1, as tile SRAM
holds it after step 1 of the issuing cycle: DESIGN CHOICE, since R146 does not say when the word is read (log 48). After
the group a plane copy that has written the word no longer holds its plane (R164). -/
def execEngWait (g : BitVec 4) (src : BitVec 10) (s : State) : Host.Outcome State Fault Refusal :=
  let off := (s.cx.aS 13).toNat
  trigger s g src []
    (cwChecks s off ++ [chk (s.ck.cmds.any (fun m => m.gid != s.iss.gid && m.cw == off)) (s.freezeAt 8)])
    (fun t => { (t.landS 1 0x09A (BitVec.ofNat 64 (Mem.readLE s.iss.tile0 off 8))) with
      iss := { t.iss with waited := t.iss.waited ++ [off] } })

/-- Bytes that 16 × n elements of a format take in a tile register (R39, R45). -/
def cvtBytes (f : Fmt) (n : Nat) : Nat := if f.isKB then n * kbBytes f else n * 2 * width f
/-- A lane format that eng.tcvt converts (R147). -/
def cvtLane (f : Fmt) : Bool := f == .fp32 || f == .bf16 || f == .fp16

/-- eng.tcvt.MOD (R147), with the faults in the order of its list. A SRC without a window has no tag to check: it is ACCESS_DENIED
(R12), in its place in the list. -/
def execEngTcvt (g : BitVec 4) (src : BitVec 10) (m : BitVec 3) (s : State) : Host.Outcome State Fault Refusal :=
  let a := s.cx.aS 13
  let b := s.cx.bS 13
  let x := s.cx
  let rs := fld a 0 6
  let rd := fld a 8 6
  let n := fld a 32 16
  let f := x.ttagOf rs
  let tgt := Fmt.ofCodeRaw (fld a 16 5)
  let lap := match x.window rs, x.window rd with | some u, some v => meets u.off u.size v.off v.size | _, _ => false
  trigger s g src []
    ([chk ((tgt.isKB && fld m 0 2 != 0) || fld a 6 2 != 0 || fld a 14 2 != 0 || fld a 21 11 != 0 || fld a 48 16 != 0 ||
        fld b 21 43 != 0 || n == 0 || lap) (s.own 1),
      chk (!(tgt.isKB || cvtLane tgt) || ((x.window rs).isSome && !((f.isKB && cvtLane tgt) || (cvtLane f && tgt.isKB)))) (s.own 3),
      chk (x.tileOut rs 0 (cvtBytes f n) || x.tileOut rd 0 (cvtBytes tgt n)) (s.own 9)] ++
     cwChecks s b.toNat ++ [admission s b.toNat])
    (fun t => fireCmd none false 0
      { t.newCmd (0x348 + m.toNat) a b with
        ranges := [(x.tileAt rs 0, cvtBytes f n), (x.tileAt rd 0, cvtBytes tgt n)]
        info := BitVec.ofNat 1024 f.code, cw := b.toNat, nsec := 1 } t)

/-! ## Aqueduct exchanges (R258 to R261) -/

/-- Extent of dimension d of a layout map (R259). -/
def mapE (m : BitVec 1024) (d : Nat) : Nat := fld m (320 + 32 * d) 32
/-- Stride field of dimension d. -/
def mapS (m : BitVec 1024) (d : Nat) : Nat := fld m (512 + 32 * d) 32
/-- Source dimension at destination slot p. -/
def mapP (m : BitVec 1024) (p : Nat) : Nat := fld m (16 + 3 * p) 3
/-- Number of source dimensions. -/
def mapND (m : BitVec 1024) : Nat := fld m 0 3
/-- Split dimension. -/
def mapSplit (m : BitVec 1024) : Nat := fld m 3 3
/-- Position of the rank axis. -/
def mapRpos (m : BitVec 1024) : Nat := fld m 6 3
/-- Element size in bytes. -/
def mapW (m : BitVec 1024) : Nat := 2 ^ fld m 9 2
/-- Ranks of the exchange. -/
def mapN (m : BitVec 1024) : Nat := fld m 86 10 + 1
/-- Rank of the context. -/
def mapRank (m : BitVec 1024) : Nat := fld m 76 10
/-- Elements of the source and of each destination. -/
def mapTotal (m : BitVec 1024) : Nat := (List.range (mapND m)).foldl (fun a d => a * mapE m d) 1
/-- Sequence number of the exchange. -/
def mapSeq (m : BitVec 1024) : BitVec 32 := BitVec.ofNat 32 (fld m 96 32)

/-- Check 4 of R261. -/
def mapBad (m : BitVec 1024) : Bool :=
  let nd := mapND m
  fld m 704 320 != 0 || fld m 156 35 != 0 || fld m 64 12 != 0 || fld m 34 14 != 0 || fld m 11 5 != 0 ||
  nd == 0 || decide (6 < nd) || decide (nd ≤ mapSplit m) || decide (nd < mapRpos m) ||
  !((List.range nd).all (fun d => (List.range nd).any (fun p => mapP m p == d))) ||
  (List.range 6).any (fun d => decide (nd ≤ d) && (mapP m d != 0 || mapE m d != 0 || mapS m d != 0)) ||
  (List.range nd).any (fun d => mapE m d == 0) || mapE m (mapSplit m) % mapN m != 0 || decide (mapN m ≤ mapRank m) ||
  decide (2 ^ 30 ≤ mapTotal m)

/-- Bytes `off` to `off + n − 1` of the Wharf space of a die lie outside the launch's window there (R194, R290). -/
def State.wharfOut (s : State) (launch : Word) (die off n : Nat) : Bool :=
  match s.launchOf launch with
  | none => true
  | some l =>
    let base := 4096 * fld l.info (256 + 32 * die) 16
    let size := 4096 * fld l.info (272 + 32 * die) 16
    !(decide (base ≤ off) && decide (off + n ≤ base + size))

/-- Entries of a rank table of n ranks in tile SRAM (R251, R259). -/
def rankTable (m : Mem) (off n : Nat) : List (BitVec 32) :=
  (List.range n).map (fun k => BitVec.ofNat 32 (Mem.readLE m (off + 4 * k) 4))

/-! ## Peer transfers (R270) -/

/-- eng.peerwr and eng.peerrd. -/
def peerCmd (port : Nat) (load : Bool) (g : BitVec 4) (src : BitVec 10) (s : State) : Host.Outcome State Fault Refusal :=
  let a := s.cx.aS 13
  let w := s.cx.bS 13
  let ndev := match s.launchOf s.cx.launchId with | some l => l.ndev | none => 0
  trigger s g src []
    [chk (fld a 43 5 != 0 || fld a 21 11 != 0 || fld w 21 5 != 0 || fld w 6 10 != 0 || !posOK (fld a 32 11)) (s.own 1),
     chk (decide (ndev ≤ fld a 48 16) || s.cx.tileOut (tileReg w) (tileOff w) (64 * tileSecs w) ||
       !s.cx.inWindow (cwOff w) 8) (s.own 9),
     chk (load && tagRefused (fld w 16 5)) (s.own 3), chk (fld a 0 21 % 64 != 0) (s.own 0x0C), admission s (cwOff w)]
    (fun t => fireCmd (some load) false 0
      { t.newCmd port a w with
        ranges := [(t.cx.tileAt (tileReg w) (tileOff w), 64 * tileSecs w)], cw := cwOff w, nsec := tileSecs w } t)

/-- eng.peerwr (R270). -/
def execEngPeerwr (g : BitVec 4) (src : BitVec 10) (s : State) : Host.Outcome State Fault Refusal := peerCmd 0x351 false g src s

/-- eng.peerrd (R270). -/
def execEngPeerrd (g : BitVec 4) (src : BitVec 10) (s : State) : Host.Outcome State Fault Refusal := peerCmd 0x352 true g src s

/-! ## Near-memory commands (R271 to R275) -/

/-- The five kinds of near-memory command. -/
inductive NmKind where
  | fuse | sadd | red | fill | copy
  deriving DecidableEq, Repr

/-- The kind of a port code of R271. -/
def nmKind (port : Nat) : NmKind :=
  if port = 0x358 then .fuse else if port = 0x359 then .sadd else if port = 0x35A then .red
  else if port = 0x35B then .fill else .copy

/-- Format code of stream i of a record (R272). -/
def nmFmt (r : BitVec 1024) (i : Nat) : Nat := fld r (44 + 5 * i) 5
/-- Address of stream i. -/
def nmAddr (r : BitVec 1024) (i : Nat) : Nat := fld r (256 + 64 * i) 64
/-- Element count. -/
def nmCount (r : BitVec 1024) : Nat := fld r 75 21
/-- MOD field. -/
def nmMod (r : BitVec 1024) : Nat := fld r 72 3
/-- OP field. -/
def nmOp (r : BitVec 1024) : Nat := fld r 70 2
/-- Constant i as an FP32 code, or a half of the pattern. -/
def nmC (r : BitVec 1024) (i : Nat) : Nat := fld r (128 + 32 * i) 32

/-- The streams that a kind uses (R273). -/
def nmUsed (k : NmKind) (r : BitVec 1024) : List Nat :=
  match k with
  | .fuse => if nmFmt r 3 = 0 ∧ nmAddr r 3 = 0 then [0, 1, 2] else [0, 1, 2, 3]
  | .sadd => [0, 1, 2]
  | .red => [0, 1]
  | .fill => [0]
  | .copy => [0, 1]

/-- The formats that R273 allows stream i. -/
def nmAllowed (k : NmKind) (i f : Nat) : Bool :=
  match k with
  | .fuse | .sadd => f == 1 || f == 2 || f == 3
  | .red => f == 1 || (i == 1 && (f == 2 || f == 3))
  | .fill | .copy => f == 0

/-- Element size of stream i in bytes (R272). -/
def nmW (k : NmKind) (r : BitVec 1024) (i : Nat) : Nat :=
  match k with
  | .fill | .copy => 2 ^ fld r 68 2
  | _ => if nmFmt r i = 1 then 4 else 2
/-- Bytes that stream i covers (R273). -/
def nmBytes (k : NmKind) (r : BitVec 1024) (i : Nat) : Nat := if k = .red ∧ i = 0 then 8 else nmCount r * nmW k r i

/-- Check 4 of R274; the FMT of the streams of a fill and a copy is a field that R273 requires to be zero. -/
def nmBad (k : NmKind) (r : BitVec 1024) : Bool :=
  fld r 224 32 != 0 || fld r 96 32 != 0 || fld r 64 4 != 0 || fld r 0 44 != 0 || nmCount r == 0 ||
  (List.range 4).any (fun i => !(nmUsed k r).contains i && (nmFmt r i != 0 || nmAddr r i != 0)) ||
  (match k with
   | .fuse => nmOp r != 0 || fld r 68 2 != 0
   | .sadd => nmOp r != 0 || fld r 68 2 != 0 || nmC r 1 != 0 || nmC r 2 != 0
   | .red => nmMod r != 0 || fld r 68 2 != 0 || nmC r 0 != 0 || nmC r 1 != 0 || nmC r 2 != 0
   | .fill => nmFmt r 0 != 0 || nmMod r != 0 || nmOp r != 0 || nmC r 2 != 0
   | .copy => nmFmt r 0 != 0 || nmFmt r 1 != 0 || nmMod r != 0 || nmOp r != 0 || nmC r 0 != 0 || nmC r 1 != 0 || nmC r 2 != 0)

/-- Check 6 of R274. -/
def nmRange (k : NmKind) (r : BitVec 1024) : Bool :=
  let u := nmUsed k r
  u.any (fun i => decide (2 ^ 20 < nmBytes k r i)) ||
  u.any (fun i => u.any (fun j => decide (i < j) && meets (nmAddr r i) (nmBytes k r i) (nmAddr r j) (nmBytes k r j) &&
    !(k == .sadd && i == 0 && j == 2 && nmAddr r 0 == nmAddr r 2 && nmFmt r 0 == nmFmt r 2)))

/-- A near-memory command at issue (R274, R275). -/
def nmCmd (port : Nat) (g : BitVec 4) (src : BitVec 10) (s : State) : Host.Outcome State Fault Refusal :=
  let k := nmKind port
  let off := (s.cx.aS 13).toNat
  let w := s.cx.bS 13
  let r : BitVec 1024 := BitVec.ofNat 1024 (Mem.readLE s.iss.tile0 off 64)
  trigger s g src []
    [chk (fld w 0 46 != 0) (s.own 1), chk (!s.cx.inWindow off 64 || !s.cx.inWindow (cwOff w) 8) (s.own 9),
     chk (off % 64 != 0) (s.own 0x0C), chk (s.ck.held s.iss.gid off 64) (s.freezeAt 8),
     chk (nmBad k r) (s.late 1), chk ((nmUsed k r).any (fun i => !nmAllowed k i (nmFmt r i))) (s.late 3),
     chk (nmRange k r) (s.late 1),
     chk ((nmUsed k r).any (fun i => nmAddr r i % (if k = .red ∧ i = 0 then 8 else 64) != 0)) (s.late 0x0C),
     admission s (cwOff w)]
    (fun t => fireCmd (some false) false 0
      { t.newCmd port (BitVec.ofNat 64 off) w with info := r, cw := cwOff w, nsec := 1 } t)

/-- eng.nm.fuse (R276). -/
def execEngNmFuse (g : BitVec 4) (src : BitVec 10) (s : State) : Host.Outcome State Fault Refusal := nmCmd 0x358 g src s

/-- eng.nm.sadd (R276). -/
def execEngNmSadd (g : BitVec 4) (src : BitVec 10) (s : State) : Host.Outcome State Fault Refusal := nmCmd 0x359 g src s

/-- eng.nm.red (R277). -/
def execEngNmRed (g : BitVec 4) (src : BitVec 10) (s : State) : Host.Outcome State Fault Refusal := nmCmd 0x35A g src s

/-- eng.nm.fill (R276). -/
def execEngNmFill (g : BitVec 4) (src : BitVec 10) (s : State) : Host.Outcome State Fault Refusal := nmCmd 0x35B g src s

/-- eng.nm.copy (R276). -/
def execEngNmCopy (g : BitVec 4) (src : BitVec 10) (s : State) : Host.Outcome State Fault Refusal := nmCmd 0x35C g src s

end Sys2Proof.Machine
end

