-- ==== Sys2Proof/Machine/Translate.lean ====
section
/-! DEFINITION. Addresses, page tables, translation buffers, access tables and frame tags (R332 to R346, R360, R362), and
the physical accesses that go through them. -/

namespace Sys2Proof.Machine

/-! ## The physical map (R332) -/

/-- The physical address lies in HBM. -/
def inHbm (pa : Nat) : Bool := decide (pa < 0x8000000000)
/-- The physical address lies in the host-memory window. -/
def inHost (pa : Nat) : Bool := decide (0x100000000000 ≤ pa) && decide (pa < 0x200000000000)
/-- The physical address lies in the peer-memory window. -/
def inPeer (pa : Nat) : Bool := decide (0x200000000000 ≤ pa) && decide (pa < 0x400000000000)
/-- The stack that holds an HBM address. -/
def stackOf (pa : Nat) : Nat := pa / 0x1000000000
/-- The address stands in a stack in thermal self-refresh (R357). -/
def State.asleep (s : State) (pa : Nat) : Bool := inHbm pa && s.selfRef.getLsbD (stackOf pa)
/-- The first of a list of addresses that stands in a sleeping stack. -/
def State.firstAsleep (s : State) (l : List Nat) : Option Nat := l.find? s.asleep

/-! ## Page tables (R333 to R335) -/

/-- ROOT of a space descriptor. -/
def spRoot (d : BitVec 128) : Nat := fld d 64 46
/-- Partition of a space descriptor. -/
def spPart (d : BitVec 128) : Nat := fld d 32 4
/-- The descriptor that the masters hold for a space. -/
def State.space (s : State) (spid : Nat) : BitVec 128 := NMap.get 0 s.spaces spid
/-- The page-table entry at a physical address. -/
def State.pteAt (s : State) (pa : Nat) : Word := BitVec.ofNat 64 (Mem.readLE s.mem pa 8)
/-- PPN of an entry as a physical address (bits 45:15). -/
def ptePa (e : Word) : Nat := fld e 15 31 * 32768
/-- The entry is malformed at a level (R334). -/
def pteBad (e : Word) (level : Nat) : Bool :=
  fld e 46 18 != 0 || fld e 8 7 != 0 || (bit e 1 && level == 1) || (!bit e 1 && level == 3) ||
  (!bit e 1 && fld e 2 6 != 0) || (bit e 1 && level == 3 && !bit e 5 && bit e 15) ||
  (bit e 1 && level == 2 && fld e 15 13 != 0)

/-- What a walk comes to: a translation fault, a leaf with its address, its entry and whether it is large, or an entry that a
sleeping stack does not give out yet (R357). -/
inductive Walk where
  | fault
  | asleep (pa : Nat)
  | leaf (addr : Nat) (e : Word) (large : Bool)
  deriving DecidableEq, Repr

/-- The walk of R335 for a virtual address. -/
def State.walk (s : State) (spid va : Nat) : Walk :=
  let d := s.space spid
  if !bit d 0 || decide (2 ^ 52 ≤ va) then .fault else
  let a1 := spRoot d + 8 * (va / 2 ^ 40 % 4096)
  if s.asleep a1 then .asleep a1 else
  let e1 := s.pteAt a1
  if !bit e1 0 || pteBad e1 1 then .fault else
  let a2 := ptePa e1 + 8 * (va / 2 ^ 28 % 4096)
  if s.asleep a2 then .asleep a2 else
  let e2 := s.pteAt a2
  if !bit e2 0 || pteBad e2 2 then .fault else
  if bit e2 1 then .leaf a2 e2 true else
  let a3 := ptePa e2 + 8 * (va / 2 ^ 16 % 4096)
  if s.asleep a3 then .asleep a3 else
  let e3 := s.pteAt a3
  if !bit e3 0 || pteBad e3 3 then .fault else .leaf a3 e3 false

/-- Physical address that a leaf gives. -/
def leafPa (e : Word) (large : Bool) (va : Nat) : Nat := if large then ptePa e + va % 2 ^ 28 else ptePa e + va % 2 ^ 16

/-! ## Translation buffers (R336) -/

/-- The second-level buffer of a master: 1000 + cluster for tile cores, 2000 + die for the others. -/
def tlb2 (master : Nat) : Nat :=
  if master < 384 then 1000 + 6 * (master / 96) + cluOf master
  else if master < 400 then 2000 + (master - 384) / 4
  else if master < 424 then 2000 + (master - 400) / 6
  else if master = 424 then 2000 else 2001
/-- Entries that a buffer holds. -/
def tlbCap (master : Nat) : Nat := if 1000 ≤ master then 4096 else if master < 384 then 256 else 64
/-- The entry translates the address for the space. -/
def Tlb.hits (e : Tlb) (master spid va : Nat) : Bool :=
  e.master == master && e.spid == spid && e.base.toNat == (if e.large then va / 2 ^ 28 * 2 ^ 28 else va / 2 ^ 16 * 2 ^ 16)
/-- The buffer entry that a master finds: its own first, then the second level's. -/
def State.tlbHit (s : State) (master spid va : Nat) : Option Tlb :=
  (s.tlbs.find? (fun e => e.hits master spid va)).or (s.tlbs.find? (fun e => e.hits (tlb2 master) spid va))
/-- An entry enters a buffer; the oldest leaves a full one. -/
def tlbPut (l : List Tlb) (e : Tlb) : List Tlb :=
  let l1 := l.filter (fun f => !(f.master == e.master && f.spid == e.spid && f.base == e.base && f.large == e.large))
  let own := l1.filter (fun f => f.master == e.master)
  (if tlbCap e.master ≤ own.length then l1.erase (own.headD e) else l1) ++ [e]

/-- A translation: the physical address with its permissions X W R, a fault, a leaf in the compressed tier, or an entry that a
sleeping stack holds back (R357). -/
inductive Trans where
  | at (pa : Nat) (perm : BitVec 3)
  | fault
  | asleep
  | tier
  deriving DecidableEq, Repr

/-- Translation of an address for a master and a space (R335). -/
def State.trans (s : State) (master spid va : Nat) : Trans :=
  match s.tlbHit master spid va with
  | some e => .at (e.pa + (va - e.base.toNat)) e.perm
  | none =>
    match s.walk spid va with
    | .fault => .fault
    | .asleep _ => .asleep
    | .leaf _ e large => if bit e 5 then .tier else .at (leafPa e large va) (BitVec.ofNat 3 (fld e 2 3))

/-- What a walk that misses does: it sets A in a TIER = 0 leaf and fills both buffers (R335, R336). -/
def State.fillTlb (s : State) (master spid va : Nat) : State :=
  if (s.tlbHit master spid va).isSome then s else
  match s.walk spid va with
  | .fault | .asleep _ => s
  | .leaf a e large =>
    if bit e 5 then s else
    let base := if large then va / 2 ^ 28 * 2 ^ 28 else va / 2 ^ 16 * 2 ^ 16
    let t (m : Nat) : Tlb := ⟨m, spid, BitVec.ofNat 64 base, large, ptePa e, BitVec.ofNat 3 (fld e 2 3)⟩
    { s with
      mem := Mem.writeLE s.mem a 8 (e ||| 64).toNat
      tlbs := tlbPut (tlbPut s.tlbs (t master)) (t (tlb2 master)) }

/-- A shoot-down of a page, or of a whole space (R337). -/
def State.shootDown (s : State) (spid : Nat) (page : Option Nat) : State :=
  { s with tlbs := s.tlbs.filter (fun e => !(e.spid == spid && match page with
    | none => true
    | some va => e.base.toNat == (if e.large then va / 2 ^ 28 * 2 ^ 28 else va / 2 ^ 16 * 2 ^ 16))) }

/-! ## Access tables (R345, R346) -/

/-- Slot j of a master's entry at a target; row 511 holds what was written for every target. -/
def State.slotOf (s : State) (target master j : Nat) : BitVec 16 :=
  NMap.get (NMap.get 0 s.access (8 * (426 * 511 + master) + j)) s.access (8 * (426 * target + master) + j)
/-- A write of one slot at one target, or at every target (511). -/
def State.setSlot (s : State) (target master j : Nat) (v : BitVec 16) : State :=
  let l := if target = 511 then
      s.access.filter (fun e => !(e.1 % 8 == j && e.1 / 8 % 426 == master && decide (e.1 / 8 / 426 < 422)))
    else s.access
  { s with access := NMap.put l (8 * (426 * target + master) + j) v }
/-- The target admits a request of the master for the space. -/
def State.admits (s : State) (target master spid : Nat) (write : Bool) : Bool :=
  (List.range 8).any (fun j =>
    let v := s.slotOf target master j
    bit v 15 && fld v 0 12 == spid && bit v (if write then 14 else 13))
/-- The kernel gives a space a slot in a master's entry at every target, where it has none (R346). -/
def State.giveSlot (s : State) (master spid : Nat) : State :=
  if s.admits 511 master spid true then s else
  match (List.range 8).find? (fun j => !bit (s.slotOf 511 master j) 15) with
  | some j => s.setSlot 511 master j (BitVec.ofNat 16 (0xE000 + spid % 4096))
  | none => s
/-- A free slot is left in the master's entry for the space, or the space has one (R346). -/
def State.slotFree (s : State) (master spid : Nat) : Bool :=
  (List.range 8).any (fun j => let v := s.slotOf 511 master j; !bit v 15 || fld v 0 12 == spid)
/-- Every slot of a space is taken away, at the target where it stands (R346, R348). -/
def State.dropSlots (s : State) (spid : Nat) : State :=
  { s with access := s.access.map (fun e => if fld e.2 0 12 = spid then (e.1, 0) else e) }
/-- Target number of a physical address. -/
def targetOf (pa : Nat) : Nat := if inHbm pa then 384 + stackOf pa else 420

/-! ## Frame tags (R360, R362) -/

/-- Where the frame tag entry of an HBM address stands, once FTTBASE has been written (R360, R376). -/
def State.tagPlace (s : State) (pa : Nat) : Option Nat :=
  if inHbm pa then (s.mr.find? (fun e => e.1 == 0x360)).map (fun e => e.2.toNat + 2 * (pa / 65536)) else none
/-- The frame tag entry of an address (R360). Before the kernel has placed the table every entry is at its reset image (log 53). -/
def State.tagWord (s : State) (pa : Nat) : BitVec 16 :=
  match s.tagPlace pa with | some a => BitVec.ofNat 16 (Mem.readLE s.mem a 2) | none => 0xFFFF
/-- The region id of a frame tag entry. -/
def tagId (t : BitVec 16) : Option Nat := if fld t 12 4 = 0 then some (fld t 0 12) else none
/-- The region id that the frame of an HBM address carries. -/
def State.tagOf (s : State) (pa : Nat) : Option Nat := if inHbm pa then tagId (s.tagWord pa) else none
/-- Bytes of a page. -/
def pageBytes (large : Bool) : Nat := if large then 2 ^ 28 else 2 ^ 16
/-- The region id that a page in the compressed tier keeps for the frame of an address (R360). -/
def State.tierTag (s : State) (spid va : Nat) : Option Nat :=
  match s.walk spid va with
  | .leaf _ e large => (match s.tier.find? (fun t => t.1 == ptePa e / 32768) with
    | some t => tagId (NMap.get 0xFFFF t.2.tags (va % pageBytes large / 65536))
    | none => none)
  | .fault | .asleep _ => none

/-! ## Reaching memory -/

/-- The edges that the way from one die to another takes; a diagonal die is reached through die d XOR 1 (R377). -/
def edgesTo (a b : Nat) : List (BitVec 4) :=
  let edge (p q : Nat) : BitVec 4 := BitVec.ofNat 4 (4 * min p q + max p q)
  let via := if a % 2 = 0 then a + 1 else a - 1
  if a = b then [] else if (a + b = 3) then [edge a via, edge via b] else [edge a b]
/-- The way from one die to another crosses an edge that has failed: it carries no further flit (R356). -/
def State.cutOff (s : State) (a b : Nat) : Bool := (edgesTo a b).any s.deadEdges.contains

/-- The first valid port that a route-table entry names for a die, in the entry's nibbles (R377). -/
def portsOf (e : BitVec 128) (die : Nat) : List Nat :=
  (List.range 4).filterMap (fun j => if bit e (16 * die + 4 * j + 3) then some (6 * die + fld e (16 * die + 4 * j) 3) else none)

/-- The path of a message to a rank (R227, R377): 24 + die for the sender die's network, else a port. -/
def State.path (s : State) (l : Launch) (die dev : Nat) : Nat :=
  if dev = l.rank then 24 + die
  else
    let e := NMap.get 0 l.routes dev
    let from' := if portsOf e die != [] then die else ((List.range 4).find? (fun d => portsOf e d != [])).getD 0
    ((portsOf e from').filter (fun p => !s.deadPorts.contains p)).headD 99

/-- What an access meets: the physical address, a page the kernel must map or has declared unmappable, a compressed page
that is being expanded, or a refusal. An access whose way to its stack crosses a failed edge (R356), or whose page-table entry
stands in a sleeping stack (R357), waits like one for a page being expanded. -/
inductive Reach where
  | at (pa : Nat)
  | unmapped
  | noMap
  | expand
  | denied
  deriving DecidableEq, Repr

/-- The rank that a peer slot names in the launch that owns a space (R332, R377). -/
def State.peerRank (s : State) (spid pa : Nat) : Option Nat :=
  match s.launches.find? (fun l => l.spid == spid) with
  | none => none
  | some l => (l.routes.find? (fun e => bit e.2 70 && fld e.2 64 6 == pa / 2 ^ 39 % 64)).map (fun e => e.1)

/-- Why an access is made: permission bit 0 R, 1 W, 2 X, and whether R362 lets it reach a tagged frame. -/
structure Need where
  perm : Nat
  tagged : Bool
  deriving DecidableEq, Repr

/-- A read that R362 refuses on a tagged frame. -/
def Need.read : Need := ⟨0, false⟩
/-- A read that R362 counts on a tagged frame. -/
def Need.counted : Need := ⟨0, true⟩
/-- A write. -/
def Need.write : Need := ⟨1, false⟩

/-- The die of a master of R345: tile cores, GP cores, lock-keepers; the host link is on die 0 and the storage port on die 1
(R2). -/
def dieOfMaster (m : Nat) : Nat :=
  if m < 384 then m / 96 else if m < 400 then (m - 384) / 4 else if m < 424 then (m - 400) / 6 else if m = 425 then 1 else 0
/-- An access of a master for a space to an address whose bytes lie in one page (R332, R338, R346, R362). -/
def State.reach (s : State) (master spid va : Nat) (need : Need) : Reach :=
  match s.trans master spid va with
  | .fault => if s.unmappable.contains (spid, va / 65536) || decide (2 ^ 52 ≤ va) then .noMap else .unmapped
  | .tier | .asleep => .expand
  | .at pa perm =>
    let ok := bit perm need.perm && (inHbm pa || inHost pa || (inPeer pa && (s.peerRank spid pa).isSome)) &&
      (inPeer pa || s.admits (targetOf pa) master spid (need.perm == 1)) && (need.tagged || (s.tagOf pa).isNone)
    if inHbm pa && s.cutOff (dieOfMaster master) (stackOf pa / 2) then .expand else if ok then .at pa else .denied

/-- A page request of a page stands. -/
def State.requested (s : State) (spid page : Nat) : Bool := s.pageReqs.any (fun q => q.1 == spid && q.2.1 == page)
/-- A page request of the resident kernel on a GP core of the faulting master's die; further faults on the page join it (R338). -/
def State.wantPage (s : State) (master spid va : Nat) : State :=
  if s.requested spid (va / 65536) then s else { s with pageReqs := s.pageReqs ++ [(spid, va / 65536, dieOfMaster master)] }

/-- A stack in self-refresh holds an access for its exit, in the order received (R357). -/
def State.holdAt (s : State) (stack : Nat) (i : Held) : State :=
  let l := NMap.get [] s.srHeld stack
  if l.contains i then s else { s with srHeld := NMap.put s.srHeld stack (l ++ [i]) }
/-- The stack of an address, in self-refresh, holds the access for its exit (R357). -/
def State.holdFor (s : State) (pa : Nat) (i : Held) : State := s.holdAt (stackOf pa) i

/-- Pages of 64 KiB that a range touches, by their first bytes in the range. -/
def pagesOf (va n : Nat) : List Nat :=
  (List.range ((va + n - 1) / 65536 - va / 65536 + 1)).map (fun i => max va ((va / 65536 + i) * 65536))

/-- Every page of a range that the tables map is walked (R335). -/
def State.fillPages (s : State) (master spid va n : Nat) : State := (pagesOf va n).foldl (fun s p => s.fillTlb master spid p) s

/-- Physical memory with bytes written, and the marks they clear. -/
def State.putMem (s : State) (pa : Nat) (bs : List Byte) : State :=
  { s with mem := Mem.write s.mem pa bs, marks := marksWrite s.marks pa bs.length }

/-- The device writes bytes of its own to physical memory; a sleeping stack holds them (R357). -/
def State.sendMem (s : State) (pa : Nat) (bs : List Byte) : State :=
  if s.asleep pa then s.holdFor pa (.bytes pa bs) else s.putMem pa bs

/-! ## Frame pools (R339, R342, R376) -/

/-- The pool of a partition. -/
def State.pool (s : State) (part : Nat) : List Nat := NMap.get [] s.pools part
/-- A frame leaves the pool. -/
def State.takeFrame (s : State) (part : Nat) : Option (Nat × State) :=
  match s.pool part with
  | [] => none
  | f :: t => some (f, { s with pools := NMap.put s.pools part t })
/-- A frame enters the pool; one that is already in a pool does not. -/
def State.giveFrame (s : State) (part f : Nat) : State :=
  if s.pools.any (fun e => e.2.contains f) then s else { s with pools := NMap.put s.pools part (s.pool part ++ [f]) }

end Sys2Proof.Machine
end

