-- ==== Sys2Proof/Machine/Errors.lean ====
section
/-! DEFINITION. Event records (R358), the attribution of events (R351), and the rings that the device writes (R372,
R373). -/

namespace Sys2Proof.Machine

/-- A management register without behaviour of its own (R372). -/
def State.mreg (s : State) (off : Nat) : Word := NMap.get 0 s.mr off
/-- The state with a management register set. -/
def State.setMreg (s : State) (off : Nat) (w : Word) : State := { s with mr := NMap.put s.mr off w }

/-- The hottest junction of a TEMP reading, in units of 0.1 °C (R372). -/
def hottest (temp : Word) : Nat := (List.range 4).foldl (fun n d => max n (fld temp (16 * d) 16)) 0
/-- The module throttles while a junction stands above 100 °C, the coolant inlet above 40 °C, or the power above its cap
(R372, R380). -/
def State.throttle (s : State) : State :=
  { s with throttled := decide (1000 < hottest (s.mreg 0x500)) || decide (400 < fld (s.mreg 0x520) 0 16) ||
      decide ((s.mreg 0x518).toNat < (s.mreg 0x510).toNat) }

/-- Nanoseconds since boot (R358): wall cycles of 1.2 GHz. -/
def State.nanos (s : State) : Nat := s.wall * 5 / 6

/-- An event record enters the event ring, or is counted lost where the ring is full or has no place yet (R358). -/
def State.event (s : State) (source cls : Nat) (addr launch : Word) (master : Nat) : State :=
  let base := (s.mreg 0x200).toNat
  let tail := (s.mreg 0x210).toNat
  if base = 0 ∨ 2 ^ min (s.mreg 0x208).toNat 16 ≤ tail then s.setMreg 0x218 (s.mreg 0x218 + 1)
  else
    let rec32 := source + cls * 2 ^ 8 + master * 2 ^ 16 + s.evSeq.toNat * 2 ^ 32 + s.nanos % 2 ^ 64 * 2 ^ 64 +
      launch.toNat * 2 ^ 128 + addr.toNat * 2 ^ 192
    let s1 := (s.sendMem (base + 32 * tail) (leBytes 32 rec32)).setMreg 0x210 (BitVec.ofNat 64 (tail + 1))
    { s1 with evSeq := s.evSeq + 1, msix := s1.msix ++ [2] }

/-- A corrected event of a launch: recorded, and the verdict at least CORRECTED (R351). -/
def State.corrected (s : State) (source : Nat) (addr launch : Word) (master : Nat) : State :=
  (s.event source 0 addr launch master).updLaunch launch Launch.correct

/-- A record goes to a ring of the host: base, log2 of the slots, the reader's count and the writer's, at four offsets.
None where the ring is full (R372, R373). -/
def State.toRing (s : State) (baseR sizeR headR tailR slot : Nat) (bs : List Byte) (vector : Nat) : Option State :=
  let tail := s.mreg tailR
  let size := 2 ^ min (s.mreg sizeR).toNat 16
  if size ≤ (tail - s.mreg headR).toNat then none
  else
    let a := 0x100000000000 + (s.mreg baseR).toNat + slot * (tail.toNat % size)
    let s1 := (s.putMem a bs).setMreg tailR (tail + 1)
    some { s1 with msix := s1.msix ++ [vector] }

/-- A completion record (R298) is written, or held back while the completion ring is full (R373). -/
def State.completion (s : State) (bs : List Byte) : State :=
  if s.heldOut.any (fun e => !e.1) then { s with heldOut := s.heldOut ++ [(false, bs)] }
  else match s.toRing 0x120 0x128 0x130 0x138 64 bs 0 with
    | some t => t
    | none => { s with heldOut := s.heldOut ++ [(false, bs)] }

/-- A signed statement is written, or held back while the statement ring is full (R373). -/
def State.statement (s : State) (bs : List Byte) : State :=
  if s.heldOut.any (fun e => e.1) then { s with heldOut := s.heldOut ++ [(true, bs)] }
  else match s.toRing 0x180 0x188 0x190 0x198 131072 bs 1 with
    | some t => t
    | none => { s with heldOut := s.heldOut ++ [(true, bs)] }

/-- Records held back are written as far as their rings have room. -/
def State.flushOut (s : State) : State :=
  s.heldOut.foldl (fun s e => if e.1 then s.statement e.2 else s.completion e.2) { s with heldOut := [] }

end Sys2Proof.Machine
end

