-- ==== Sys2Proof/Machine/Tasks.lean ====
section
/-! DEFINITION. The end of a task (R72, R225, R302) and what the task tables of its launch say of it (R118). -/

namespace Sys2Proof.Machine

/-- The tile-SRAM stores of ls already issued take effect, in the order they were fired: memory operations already
issued complete (R72). -/
def flushStores (s : State) (c : Nat) : List Flight → State
  | [] => s
  | f :: t =>
    flushStores (match f.item with
      | .lsStore a n w => landStore s c a n w
      | .lsVst r a v => landVst s c r a v
      | _ => s) c t

/-- Task i of a launch changes its standing; where it ends, its context is noted (R225). -/
def Launch.setTask (l : Launch) (i : Nat) (t : TaskStat) : Launch :=
  { l with
    tstat := NMap.put l.tstat i t
    gone := match t with | .ended c => if l.gone.contains c then l.gone else l.gone ++ [c] | _ => l.gone }

/-- The context after its task has ended: registers, results in flight, claims and inlet are gone; the queues keep
performing (R72, R225). -/
def Ctx.ended (x : Ctx) : Ctx :=
  let keep (q : List QEnt) := q.filter (fun e => !(e.kind == .berth))
  { Ctx.init with loadQ := keep x.loadQ, storeQ := keep x.storeQ, spid := x.spid, age := x.age + 8 }

/-- The running task of context c ends after its group (R72). -/
def endTask (s : State) (c : Nat) : State :=
  let x := s.ctx c
  match x.task with
  | none => s
  | some t =>
    let s1 := flushStores s c x.snap
    let s2 := (s1.setCtx c x.ended).updLaunch t.launch (fun l => l.setTask t.task (.ended c))
    let s3 := s2.updCore (c / 4) (fun k => { k with preempt := if k.preempt = some c then none else k.preempt })
    { s3 with notified := s3.notified.filter (· != c), intReq := s3.intReq.filter (· != c) }

/-- The task of context c ends on a cause, and its launch's verdict becomes TAINTED (R288, R297, R316). -/
def endTainted (s : State) (c cause : Nat) : State := endTask (s.taintOf c cause) c

end Sys2Proof.Machine
end

