-- ==== Sys2Proof/Machine/Flags.lean ====
section
/-! DEFINITION. The flag computations: the part has no status register of arithmetic flags; what other machines keep in
flags it lands in .q2 (R57, R58) or in compare masks (R82). This file holds the pairs (.q, .q2) of the integer units, the
truth values of the scalar compares (R60), and the lane truth value of a compare. -/

namespace Sys2Proof.Machine

/-- Carry out of unsigned(a) + unsigned(b) (R58). -/
def carryOut (a b : Word) : Word := b2w (decide (2 ^ 64 ≤ a.toNat + b.toNat))
/-- Borrow of a − b: 1 if unsigned(a) < unsigned(b) (R58). -/
def borrow (a b : Word) : Word := b2w (decide (a.toNat < b.toNat))
/-- A comparison's .q and .q2: the truth value and its complement (R58). -/
def cmpPair (b : Bool) : Word × Word := (b2w b, b2w (!b))
/-- A result alone: .q2 receives zero (R57). -/
def alone (w : Word) : Word × Word := (w, 0)
/-- A signed sum clamped to 64 bits, and 1 in .q2 if it was clamped (R58). -/
def clampPair (i : Int) : Word × Word :=
  let r := clampI (-(2 ^ 63)) (2 ^ 63 - 1) i
  (BitVec.ofInt 64 r, b2w (r != i))
/-- The low and high 64 bits of a 128-bit product (R58). -/
def prodPair (i : Int) : Word × Word := (BitVec.ofInt 64 i, BitVec.ofInt 64 (i / 2 ^ 64))

/-- A truth value of a lane: 0x0000_0001 or 0 (R44, R82). -/
def truth (b : Bool) : Lane := if b then 1 else 0

/-- The low 32 bits of a scalar as FP32 (R59). -/
def f32 (w : Word) : FV := decF .fp32 (fld w 0 32)

/-- sf.feq, sf.flt, sf.fle and sf.fun on the low 32 bits (R60). -/
def sfEq (a b : Word) : Word := b2w ((f32 a).feq (f32 b))
/-- See `sfEq`. -/
def sfLt (a b : Word) : Word := b2w ((f32 a).lt (f32 b))
/-- See `sfEq`. -/
def sfLe (a b : Word) : Word := b2w ((f32 a).le (f32 b))
/-- See `sfEq`. -/
def sfUn (a b : Word) : Word := b2w ((f32 a).isNan || (f32 b).isNan)

end Sys2Proof.Machine
end

