-- ==== Sys2Proof/Machine/Va.lean ====
section
/-! DEFINITION. The vector units va0 and va1 (R75 to R85). -/

namespace Sys2Proof.Machine

/-- Class F of R75. -/
def clsF (f : Fmt) : Bool := f == .fp32 || f == .bf16 || f == .fp16
/-- Class H of R75. -/
def clsH (f : Fmt) : Bool := f == .bf16 || f == .fp16
/-- Class I of R75. -/
def clsI (f : Fmt) : Bool := isInt f
/-- Class B of R75. -/
def clsB (f : Fmt) : Bool := f == .int8 || f == .uint8
/-- Class C of R75. -/
def clsC (f : Fmt) : Bool := isInt f || f == .bin8
/-- Class A of R75: every tag. -/
def clsA (_ : Fmt) : Bool := true

/-- The operating format of R75: the tag of .a, else of .b where it is read, else the class's default. -/
def opFmt (d : Fmt) (useB : Bool) (a b : VVal) : Fmt :=
  if !a.unt then a.tag else if useB && !b.unt then b.tag else d

/-- The tags that R75 refuses: two tags that differ, or an operating format outside the class. -/
def tagBad (cls : Fmt → Bool) (d : Fmt) (useB : Bool) (a b : VVal) : Bool :=
  (useB && !a.unt && !b.unt && a.tag != b.tag) || !cls (opFmt d useB a b)

/-- The unit is in its busy window (R9, R77). -/
def Ctx.busy (x : Ctx) (v : Nat) : Bool := NMap.get 0 x.vaBusy v != 0

/-- A vector whose lane k is `f` of the lanes k of a and b. -/
def zip2 (f : Lane → Lane → Lane) (a b : VVal) : NMap Lane := lanesOf 1024 (fun k => f (lane a.lanes k) (lane b.lanes k))

/-- A lane whose element k is `h` of the elements k of two lanes (R41). -/
def el2 (f : Fmt) (h : Nat → Nat → Nat) (x y : Lane) : Lane := packLane f (fun k => h (elem f x k) (elem f y k))

/-- The whole number of an integer or bin element (R44). -/
def ival (f : Fmt) (c : Nat) : Int := if f == .uint8 || f == .bin8 then (c % 256 : Nat) else toSigned (width f) c

/-- The lane's truth value: every element's comparison holds (R82). -/
def cmpLane (f : Fmt) (h : Nat → Nat → Bool) (x y : Lane) : Bool :=
  (List.range (perLane f)).all (fun k => h (elem f x k) (elem f y k))

/-- What a two-operand trigger computes: .q with its tag, and .q2. -/
abbrev VaFun := Fmt → VVal → VVal → VVal × NMap Lane

/-- An element function, with the operating format as output tag. -/
def vaEl (h : Fmt → Nat → Nat → Nat) : VaFun := fun f a b => (⟨zip2 (el2 f (h f)) a b, f, false⟩, [])
/-- A whole-lane function, with the operating format as output tag. -/
def vaBits (h : Lane → Lane → Lane) : VaFun := fun f a b => (⟨zip2 h a b, f, false⟩, [])
/-- A compare: .q and its complement in .q2 (R82). -/
def vaCmp (h : Fmt → Nat → Nat → Bool) : VaFun := fun f a b =>
  (⟨zip2 (fun x y => truth (cmpLane f (h f) x y)) a b, .mask, false⟩,
   zip2 (fun x y => truth (!cmpLane f (h f) x y)) a b)

/-- A trigger of unit va`v` fires: the unit is busy for the next three cycles, and .q and .q2 land at +6 (R9, R77). -/
def vaFire (v : Nat) (r : VVal × NMap Lane) (t : State) : State :=
  let t1 := t.setCx { t.cx with vaBusy := NMap.put t.cx.vaBusy v 4 }
  (t1.land 6 (0x086 + 2 * v) (.v r.1)).land 6 (0x087 + 2 * v) (.v ⟨r.2, .mask, false⟩)

/-- A trigger of va`v` that reads .a and, where `useB`, .b. -/
def vaTrig (v : Nat) (cls : Fmt → Bool) (d : Fmt) (useB : Bool) (h : VaFun) (g : BitVec 4) (src : BitVec 10)
    (s : State) : Host.Outcome State Fault Refusal :=
  let a := s.cx.aV (3 + v)
  let b := s.cx.bV (3 + v)
  trigger s g src [chk (tagBad cls d useB a b) s.cls5, chk (s.cx.busy v) s.cls6] []
    (fun t => vaFire v (h (opFmt d useB a b) a b) t)

/-- The third register of a .kN form: v(VB + k) (R76). -/
def Ctx.third (x : Ctx) (k : BitVec 3) : VVal := x.vreg (x.vbase + k.toNat)
/-- The third register lies outside the allocation (R76). -/
def Ctx.thirdOut (x : Ctx) (k : BitVec 3) : Bool := decide (x.vcount ≤ k.toNat) || decide (32 ≤ x.vbase + k.toNat)

/-- A three-operand trigger of va`v` (R84). -/
def vaTrig3 (v : Nat) (cls : Fmt → Bool) (d : Fmt) (h : Fmt → Nat → Nat → Nat → Nat) (g : BitVec 4)
    (src : BitVec 10) (k : BitVec 3) (s : State) : Host.Outcome State Fault Refusal :=
  let a := s.cx.aV (3 + v)
  let b := s.cx.bV (3 + v)
  let c := s.cx.third k
  let f := opFmt d true a b
  trigger s g src
    [chk (s.cx.thirdOut k) s.cls4, chk (tagBad cls d true a b || c.tag != f) s.cls5, chk (s.cx.busy v) s.cls6] []
    (fun t => vaFire v
      (⟨lanesOf 1024 (fun i => packLane f (fun e =>
        h f (elem f (lane a.lanes i) e) (elem f (lane b.lanes i) e) (elem f (lane c.lanes i) e))), f, false⟩, []) t)

/-- The select of va`v` by mask m (R83). -/
def vaSel (v : Nat) (g : BitVec 4) (src : BitVec 10) (m : BitVec 3) (s : State) : Host.Outcome State Fault Refusal :=
  let a := s.cx.aV (3 + v)
  let b := s.cx.bV (3 + v)
  let k := s.cx.mreg m.toNat
  trigger s g src [chk (tagBad clsA .raw true a b) s.cls5, chk (s.cx.busy v) s.cls6] []
    (fun t => vaFire v
      (⟨lanesOf 1024 (fun i => if k.getLsbD i then lane a.lanes i else lane b.lanes i), opFmt .raw true a b, false⟩, []) t)

/-- The sources and targets of a conversion (R85). -/
def cvtFmt (f : Fmt) : Bool := isFloat f || isInt f || f == .bin8

/-- A lane-format conversion (R85): PART, source and target formats, MOD. -/
def cvtVal (part : Nat) (sf tf : Fmt) (mod : Nat) (a : VVal) : VVal :=
  let ns := perLane sf
  let nt := perLane tf
  let src (r j : Nat) : Nat := encElem tf mod (decElem sf (elem sf (lane a.lanes (64 * r + j / ns)) (j % ns)))
  let out (r e : Nat) : Nat :=
    if ns ≤ nt then
      (if part * 64 * ns ≤ e ∧ e < part * 64 * ns + 64 * ns then src r (e - part * 64 * ns) else 0)
    else src r (part * 64 * nt + e)
  ⟨lanesOf 1024 (fun i => packLane tf (fun k => out (i / 64) (i % 64 * nt + k))), tf, false⟩

/-- The conversion of va`v` (R85). A BIN8 source with TGT BIN8 is FORMAT_MISMATCH in check 4, like one with an integer target: DESIGN
CHOICE, since R52 has a BIN8 source accept only floating-point targets and names the trap for integer ones (log 63). -/
def vaCvt (v : Nat) (g : BitVec 4) (src : BitVec 10) (m : BitVec 3) (s : State) : Host.Outcome State Fault Refusal :=
  let a := s.cx.aV (3 + v)
  let b := s.cx.bV (3 + v)
  let sf := if a.unt then .fp32 else a.tag
  let w := lane b.lanes 0
  let part := fld w 8 3
  let tf := Fmt.ofCodeRaw (fld w 0 5)
  let ns := perLane sf
  let nt := perLane tf
  trigger s g src
    [chk (!cvtFmt sf || !b.unt) s.cls5, chk (s.cx.busy v) s.cls6]
    [chk (fld w 11 21 != 0 || fld w 5 3 != 0) (s.own 1), chk (!cvtFmt tf) (s.own 3),
     chk (decide (max ns nt / min ns nt ≤ part)) (s.own 1), chk (sf == .bin8 && !isFloat tf) (s.own 3)]
    (fun t => vaFire v (cvtVal part sf tf m.toNat a, []) t)

/-- The dot product of a lane's two 16-bit floats, one rounding (R81). -/
def fdotLane (f : Fmt) (x y : Lane) : Lane :=
  BitVec.ofNat 32 (encF .fp32 0 (sumFV ((List.range 2).map (fun k => (decF f (elem f x k)).mul (decF f (elem f y k))))))
/-- The dot product of a lane's four bytes (R81). -/
def idotLane (f : Fmt) (x y : Lane) : Lane :=
  BitVec.ofInt 32 (((List.range 4).map (fun k => ival f (elem f x k) * ival f (elem f y k))).foldl (· + ·) 0)

/-- A fused form, one rounding (R84): the product's sign changed for fnma, the addend's for fms. -/
def fused (np nu : Bool) (f : Fmt) (x y u : Nat) : Nat :=
  let p := (decF f x).mul (decF f y)
  encF f 0 (sumFV [if np then p.negate else p, if nu then (decF f u).negate else decF f u])

/-- fabs of an element: the canonical NaN for a NaN, else sign bit 0 (R79). -/
def fabsE (f : Fmt) (x : Nat) : Nat := if (decF f x).isNan then nanCode f else x % 2 ^ (width f - 1)
/-- fneg of an element: the canonical NaN for a NaN, else sign bit inverted (R79). -/
def fnegE (f : Fmt) (x : Nat) : Nat :=
  if (decF f x).isNan then nanCode f else (x + 2 ^ (width f - 1)) % 2 ^ width f

/-- An integer operation that wraps (R80). -/
def wrapE (h : Int → Int → Int) (f : Fmt) (x y : Nat) : Nat := wrapI (width f) (h (ival f x) (ival f y))
/-- An integer operation clamped to the format's range (R80). -/
def satE (h : Int → Int → Int) (f : Fmt) (x y : Nat) : Nat :=
  wrapI (width f) (clampI (intMin f) (intMax f) (h (ival f x) (ival f y)))
/-- The right shift of an element, sign fill for the signed formats (R80). -/
def sraE (f : Fmt) (x y : Nat) : Nat := wrapI (width f) (ival f x / 2 ^ (y % width f))

/-- va0.fadd: round_F(x + y) (R79). -/
def execVa0Fadd (g : BitVec 4) (src : BitVec 10) (s : State) : Host.Outcome State Fault Refusal :=
  vaTrig 0 clsF .fp32 true (vaEl fadd) g src s

/-- va0.fsub: round_F(x − y) (R79). -/
def execVa0Fsub (g : BitVec 4) (src : BitVec 10) (s : State) : Host.Outcome State Fault Refusal :=
  vaTrig 0 clsF .fp32 true (vaEl fsub) g src s

/-- va0.fmul: round_F(x × y) (R79). -/
def execVa0Fmul (g : BitVec 4) (src : BitVec 10) (s : State) : Host.Outcome State Fault Refusal :=
  vaTrig 0 clsF .fp32 true (vaEl fmul) g src s

/-- va0.fmin: the smaller (R79). -/
def execVa0Fmin (g : BitVec 4) (src : BitVec 10) (s : State) : Host.Outcome State Fault Refusal :=
  vaTrig 0 clsF .fp32 true (vaEl fmin) g src s

/-- va0.fmax: the larger (R79). -/
def execVa0Fmax (g : BitVec 4) (src : BitVec 10) (s : State) : Host.Outcome State Fault Refusal :=
  vaTrig 0 clsF .fp32 true (vaEl fmax) g src s

/-- va0.fabs: magnitude (R79). -/
def execVa0Fabs (g : BitVec 4) (src : BitVec 10) (s : State) : Host.Outcome State Fault Refusal :=
  vaTrig 0 clsF .fp32 false (vaEl (fun f x _ => fabsE f x)) g src s

/-- va0.fneg: sign inverted (R79). -/
def execVa0Fneg (g : BitVec 4) (src : BitVec 10) (s : State) : Host.Outcome State Fault Refusal :=
  vaTrig 0 clsF .fp32 false (vaEl (fun f x _ => fnegE f x)) g src s

/-- va0.fdot: lane dot product of 16-bit floats (R81). -/
def execVa0Fdot (g : BitVec 4) (src : BitVec 10) (s : State) : Host.Outcome State Fault Refusal :=
  vaTrig 0 clsH .fp16 true (fun f a b => (⟨zip2 (fdotLane f) a b, .fp32, false⟩, [])) g src s

/-- va0.feq: x = y in every element (R82). -/
def execVa0Feq (g : BitVec 4) (src : BitVec 10) (s : State) : Host.Outcome State Fault Refusal :=
  vaTrig 0 clsF .fp32 true (vaCmp (fun f x y => (decF f x).feq (decF f y))) g src s

/-- va0.flt: x < y in every element (R82). -/
def execVa0Flt (g : BitVec 4) (src : BitVec 10) (s : State) : Host.Outcome State Fault Refusal :=
  vaTrig 0 clsF .fp32 true (vaCmp (fun f x y => (decF f x).lt (decF f y))) g src s

/-- va0.fle: x ≤ y in every element (R82). -/
def execVa0Fle (g : BitVec 4) (src : BitVec 10) (s : State) : Host.Outcome State Fault Refusal :=
  vaTrig 0 clsF .fp32 true (vaCmp (fun f x y => (decF f x).le (decF f y))) g src s

/-- va0.fun: either is NaN in every element (R82). -/
def execVa0Fun (g : BitVec 4) (src : BitVec 10) (s : State) : Host.Outcome State Fault Refusal :=
  vaTrig 0 clsF .fp32 true (vaCmp (fun f x y => (decF f x).isNan || (decF f y).isNan)) g src s

/-- va0.add: x + y, wrapping (R80). -/
def execVa0Add (g : BitVec 4) (src : BitVec 10) (s : State) : Host.Outcome State Fault Refusal :=
  vaTrig 0 clsI .int32 true (vaEl (wrapE (· + ·))) g src s

/-- va0.sub: x − y, wrapping (R80). -/
def execVa0Sub (g : BitVec 4) (src : BitVec 10) (s : State) : Host.Outcome State Fault Refusal :=
  vaTrig 0 clsI .int32 true (vaEl (wrapE (· - ·))) g src s

/-- va0.mul: the low bits of x × y (R80). -/
def execVa0Mul (g : BitVec 4) (src : BitVec 10) (s : State) : Host.Outcome State Fault Refusal :=
  vaTrig 0 clsI .int32 true (vaEl (wrapE (· * ·))) g src s

/-- va0.min: the smaller (R80). -/
def execVa0Min (g : BitVec 4) (src : BitVec 10) (s : State) : Host.Outcome State Fault Refusal :=
  vaTrig 0 clsI .int32 true (vaEl (wrapE min)) g src s

/-- va0.max: the larger (R80). -/
def execVa0Max (g : BitVec 4) (src : BitVec 10) (s : State) : Host.Outcome State Fault Refusal :=
  vaTrig 0 clsI .int32 true (vaEl (wrapE max)) g src s

/-- va0.abs: magnitude, wrapping (R80). -/
def execVa0Abs (g : BitVec 4) (src : BitVec 10) (s : State) : Host.Outcome State Fault Refusal :=
  vaTrig 0 clsI .int32 false (vaEl (wrapE (fun x _ => (x.natAbs : Int)))) g src s

/-- va0.addsat: x + y, clamped (R80). -/
def execVa0Addsat (g : BitVec 4) (src : BitVec 10) (s : State) : Host.Outcome State Fault Refusal :=
  vaTrig 0 clsI .int32 true (vaEl (satE (· + ·))) g src s

/-- va0.subsat: x − y, clamped (R80). -/
def execVa0Subsat (g : BitVec 4) (src : BitVec 10) (s : State) : Host.Outcome State Fault Refusal :=
  vaTrig 0 clsI .int32 true (vaEl (satE (· - ·))) g src s

/-- va0.eq: x = y in every element (R82). -/
def execVa0Eq (g : BitVec 4) (src : BitVec 10) (s : State) : Host.Outcome State Fault Refusal :=
  vaTrig 0 clsC .int32 true (vaCmp (fun f x y => ival f x == ival f y)) g src s

/-- va0.lt: x < y in every element (R82). -/
def execVa0Lt (g : BitVec 4) (src : BitVec 10) (s : State) : Host.Outcome State Fault Refusal :=
  vaTrig 0 clsC .int32 true (vaCmp (fun f x y => decide (ival f x < ival f y))) g src s

/-- va0.le: x ≤ y in every element (R82). -/
def execVa0Le (g : BitVec 4) (src : BitVec 10) (s : State) : Host.Outcome State Fault Refusal :=
  vaTrig 0 clsC .int32 true (vaCmp (fun f x y => decide (ival f x ≤ ival f y))) g src s

/-- va0.idot: lane dot product of bytes (R81). -/
def execVa0Idot (g : BitVec 4) (src : BitVec 10) (s : State) : Host.Outcome State Fault Refusal :=
  vaTrig 0 clsB .int8 true (fun f a b => (⟨zip2 (idotLane f) a b, .int32, false⟩, [])) g src s

/-- va0.sll: x shifted left (R80). -/
def execVa0Sll (g : BitVec 4) (src : BitVec 10) (s : State) : Host.Outcome State Fault Refusal :=
  vaTrig 0 clsI .int32 true (vaEl (fun f x y => x * 2 ^ (y % width f))) g src s

/-- va0.srl: x shifted right, zero fill (R80). -/
def execVa0Srl (g : BitVec 4) (src : BitVec 10) (s : State) : Host.Outcome State Fault Refusal :=
  vaTrig 0 clsI .int32 true (vaEl (fun f x y => x / 2 ^ (y % width f))) g src s

/-- va0.sra: x shifted right, sign fill (R80). -/
def execVa0Sra (g : BitVec 4) (src : BitVec 10) (s : State) : Host.Outcome State Fault Refusal :=
  vaTrig 0 clsI .int32 true (vaEl sraE) g src s

/-- va0.and: a AND b (R83). -/
def execVa0And (g : BitVec 4) (src : BitVec 10) (s : State) : Host.Outcome State Fault Refusal :=
  vaTrig 0 clsA .raw true (vaBits (· &&& ·)) g src s

/-- va0.or: a OR b (R83). -/
def execVa0Or (g : BitVec 4) (src : BitVec 10) (s : State) : Host.Outcome State Fault Refusal :=
  vaTrig 0 clsA .raw true (vaBits (· ||| ·)) g src s

/-- va0.xor: a XOR b (R83). -/
def execVa0Xor (g : BitVec 4) (src : BitVec 10) (s : State) : Host.Outcome State Fault Refusal :=
  vaTrig 0 clsA .raw true (vaBits (· ^^^ ·)) g src s

/-- va0.andn: a AND NOT b (R83). -/
def execVa0Andn (g : BitVec 4) (src : BitVec 10) (s : State) : Host.Outcome State Fault Refusal :=
  vaTrig 0 clsA .raw true (vaBits (fun x y => x &&& ~~~y)) g src s

/-- va0.cvt.MOD (R85). -/
def execVa0Cvt (g : BitVec 4) (src : BitVec 10) (m : BitVec 3) (s : State) : Host.Outcome State Fault Refusal :=
  vaCvt 0 g src m s

/-- va0.fma.kN: x × y + u, one rounding (R84). -/
def execVa0Fma (g : BitVec 4) (src : BitVec 10) (k : BitVec 3) (s : State) : Host.Outcome State Fault Refusal :=
  vaTrig3 0 clsF .fp32 (fused false false) g src k s

/-- va0.fms.kN: x × y − u, one rounding (R84). -/
def execVa0Fms (g : BitVec 4) (src : BitVec 10) (k : BitVec 3) (s : State) : Host.Outcome State Fault Refusal :=
  vaTrig3 0 clsF .fp32 (fused false true) g src k s

/-- va0.fnma.kN: u − x × y, one rounding (R84). -/
def execVa0Fnma (g : BitVec 4) (src : BitVec 10) (k : BitVec 3) (s : State) : Host.Outcome State Fault Refusal :=
  vaTrig3 0 clsF .fp32 (fused true false) g src k s

/-- va0.fclamp.kN: x clamped to y and u (R84). -/
def execVa0Fclamp (g : BitVec 4) (src : BitVec 10) (k : BitVec 3) (s : State) : Host.Outcome State Fault Refusal :=
  vaTrig3 0 clsF .fp32 (fun f x y u => fmin f (fmax f x y) u) g src k s

/-- va0.iclamp.kN: x clamped to y and u (R84). -/
def execVa0Iclamp (g : BitVec 4) (src : BitVec 10) (k : BitVec 3) (s : State) : Host.Outcome State Fault Refusal :=
  vaTrig3 0 clsI .int32 (fun f x y u => wrapI (width f) (min (max (ival f x) (ival f y)) (ival f u))) g src k s

/-- va0.sel.mN (R83). -/
def execVa0Sel (g : BitVec 4) (src : BitVec 10) (m : BitVec 3) (s : State) : Host.Outcome State Fault Refusal :=
  vaSel 0 g src m s

/-- va1.fadd: round_F(x + y) (R79). -/
def execVa1Fadd (g : BitVec 4) (src : BitVec 10) (s : State) : Host.Outcome State Fault Refusal :=
  vaTrig 1 clsF .fp32 true (vaEl fadd) g src s

/-- va1.fsub: round_F(x − y) (R79). -/
def execVa1Fsub (g : BitVec 4) (src : BitVec 10) (s : State) : Host.Outcome State Fault Refusal :=
  vaTrig 1 clsF .fp32 true (vaEl fsub) g src s

/-- va1.fmul: round_F(x × y) (R79). -/
def execVa1Fmul (g : BitVec 4) (src : BitVec 10) (s : State) : Host.Outcome State Fault Refusal :=
  vaTrig 1 clsF .fp32 true (vaEl fmul) g src s

/-- va1.fmin: the smaller (R79). -/
def execVa1Fmin (g : BitVec 4) (src : BitVec 10) (s : State) : Host.Outcome State Fault Refusal :=
  vaTrig 1 clsF .fp32 true (vaEl fmin) g src s

/-- va1.fmax: the larger (R79). -/
def execVa1Fmax (g : BitVec 4) (src : BitVec 10) (s : State) : Host.Outcome State Fault Refusal :=
  vaTrig 1 clsF .fp32 true (vaEl fmax) g src s

/-- va1.fabs: magnitude (R79). -/
def execVa1Fabs (g : BitVec 4) (src : BitVec 10) (s : State) : Host.Outcome State Fault Refusal :=
  vaTrig 1 clsF .fp32 false (vaEl (fun f x _ => fabsE f x)) g src s

/-- va1.fneg: sign inverted (R79). -/
def execVa1Fneg (g : BitVec 4) (src : BitVec 10) (s : State) : Host.Outcome State Fault Refusal :=
  vaTrig 1 clsF .fp32 false (vaEl (fun f x _ => fnegE f x)) g src s

/-- va1.fdot: lane dot product of 16-bit floats (R81). -/
def execVa1Fdot (g : BitVec 4) (src : BitVec 10) (s : State) : Host.Outcome State Fault Refusal :=
  vaTrig 1 clsH .fp16 true (fun f a b => (⟨zip2 (fdotLane f) a b, .fp32, false⟩, [])) g src s

/-- va1.feq: x = y in every element (R82). -/
def execVa1Feq (g : BitVec 4) (src : BitVec 10) (s : State) : Host.Outcome State Fault Refusal :=
  vaTrig 1 clsF .fp32 true (vaCmp (fun f x y => (decF f x).feq (decF f y))) g src s

/-- va1.flt: x < y in every element (R82). -/
def execVa1Flt (g : BitVec 4) (src : BitVec 10) (s : State) : Host.Outcome State Fault Refusal :=
  vaTrig 1 clsF .fp32 true (vaCmp (fun f x y => (decF f x).lt (decF f y))) g src s

/-- va1.fle: x ≤ y in every element (R82). -/
def execVa1Fle (g : BitVec 4) (src : BitVec 10) (s : State) : Host.Outcome State Fault Refusal :=
  vaTrig 1 clsF .fp32 true (vaCmp (fun f x y => (decF f x).le (decF f y))) g src s

/-- va1.fun: either is NaN in every element (R82). -/
def execVa1Fun (g : BitVec 4) (src : BitVec 10) (s : State) : Host.Outcome State Fault Refusal :=
  vaTrig 1 clsF .fp32 true (vaCmp (fun f x y => (decF f x).isNan || (decF f y).isNan)) g src s

/-- va1.add: x + y, wrapping (R80). -/
def execVa1Add (g : BitVec 4) (src : BitVec 10) (s : State) : Host.Outcome State Fault Refusal :=
  vaTrig 1 clsI .int32 true (vaEl (wrapE (· + ·))) g src s

/-- va1.sub: x − y, wrapping (R80). -/
def execVa1Sub (g : BitVec 4) (src : BitVec 10) (s : State) : Host.Outcome State Fault Refusal :=
  vaTrig 1 clsI .int32 true (vaEl (wrapE (· - ·))) g src s

/-- va1.mul: the low bits of x × y (R80). -/
def execVa1Mul (g : BitVec 4) (src : BitVec 10) (s : State) : Host.Outcome State Fault Refusal :=
  vaTrig 1 clsI .int32 true (vaEl (wrapE (· * ·))) g src s

/-- va1.min: the smaller (R80). -/
def execVa1Min (g : BitVec 4) (src : BitVec 10) (s : State) : Host.Outcome State Fault Refusal :=
  vaTrig 1 clsI .int32 true (vaEl (wrapE min)) g src s

/-- va1.max: the larger (R80). -/
def execVa1Max (g : BitVec 4) (src : BitVec 10) (s : State) : Host.Outcome State Fault Refusal :=
  vaTrig 1 clsI .int32 true (vaEl (wrapE max)) g src s

/-- va1.abs: magnitude, wrapping (R80). -/
def execVa1Abs (g : BitVec 4) (src : BitVec 10) (s : State) : Host.Outcome State Fault Refusal :=
  vaTrig 1 clsI .int32 false (vaEl (wrapE (fun x _ => (x.natAbs : Int)))) g src s

/-- va1.addsat: x + y, clamped (R80). -/
def execVa1Addsat (g : BitVec 4) (src : BitVec 10) (s : State) : Host.Outcome State Fault Refusal :=
  vaTrig 1 clsI .int32 true (vaEl (satE (· + ·))) g src s

/-- va1.subsat: x − y, clamped (R80). -/
def execVa1Subsat (g : BitVec 4) (src : BitVec 10) (s : State) : Host.Outcome State Fault Refusal :=
  vaTrig 1 clsI .int32 true (vaEl (satE (· - ·))) g src s

/-- va1.eq: x = y in every element (R82). -/
def execVa1Eq (g : BitVec 4) (src : BitVec 10) (s : State) : Host.Outcome State Fault Refusal :=
  vaTrig 1 clsC .int32 true (vaCmp (fun f x y => ival f x == ival f y)) g src s

/-- va1.lt: x < y in every element (R82). -/
def execVa1Lt (g : BitVec 4) (src : BitVec 10) (s : State) : Host.Outcome State Fault Refusal :=
  vaTrig 1 clsC .int32 true (vaCmp (fun f x y => decide (ival f x < ival f y))) g src s

/-- va1.le: x ≤ y in every element (R82). -/
def execVa1Le (g : BitVec 4) (src : BitVec 10) (s : State) : Host.Outcome State Fault Refusal :=
  vaTrig 1 clsC .int32 true (vaCmp (fun f x y => decide (ival f x ≤ ival f y))) g src s

/-- va1.idot: lane dot product of bytes (R81). -/
def execVa1Idot (g : BitVec 4) (src : BitVec 10) (s : State) : Host.Outcome State Fault Refusal :=
  vaTrig 1 clsB .int8 true (fun f a b => (⟨zip2 (idotLane f) a b, .int32, false⟩, [])) g src s

/-- va1.sll: x shifted left (R80). -/
def execVa1Sll (g : BitVec 4) (src : BitVec 10) (s : State) : Host.Outcome State Fault Refusal :=
  vaTrig 1 clsI .int32 true (vaEl (fun f x y => x * 2 ^ (y % width f))) g src s

/-- va1.srl: x shifted right, zero fill (R80). -/
def execVa1Srl (g : BitVec 4) (src : BitVec 10) (s : State) : Host.Outcome State Fault Refusal :=
  vaTrig 1 clsI .int32 true (vaEl (fun f x y => x / 2 ^ (y % width f))) g src s

/-- va1.sra: x shifted right, sign fill (R80). -/
def execVa1Sra (g : BitVec 4) (src : BitVec 10) (s : State) : Host.Outcome State Fault Refusal :=
  vaTrig 1 clsI .int32 true (vaEl sraE) g src s

/-- va1.and: a AND b (R83). -/
def execVa1And (g : BitVec 4) (src : BitVec 10) (s : State) : Host.Outcome State Fault Refusal :=
  vaTrig 1 clsA .raw true (vaBits (· &&& ·)) g src s

/-- va1.or: a OR b (R83). -/
def execVa1Or (g : BitVec 4) (src : BitVec 10) (s : State) : Host.Outcome State Fault Refusal :=
  vaTrig 1 clsA .raw true (vaBits (· ||| ·)) g src s

/-- va1.xor: a XOR b (R83). -/
def execVa1Xor (g : BitVec 4) (src : BitVec 10) (s : State) : Host.Outcome State Fault Refusal :=
  vaTrig 1 clsA .raw true (vaBits (· ^^^ ·)) g src s

/-- va1.andn: a AND NOT b (R83). -/
def execVa1Andn (g : BitVec 4) (src : BitVec 10) (s : State) : Host.Outcome State Fault Refusal :=
  vaTrig 1 clsA .raw true (vaBits (fun x y => x &&& ~~~y)) g src s

/-- va1.cvt.MOD (R85). -/
def execVa1Cvt (g : BitVec 4) (src : BitVec 10) (m : BitVec 3) (s : State) : Host.Outcome State Fault Refusal :=
  vaCvt 1 g src m s

/-- va1.fma.kN: x × y + u, one rounding (R84). -/
def execVa1Fma (g : BitVec 4) (src : BitVec 10) (k : BitVec 3) (s : State) : Host.Outcome State Fault Refusal :=
  vaTrig3 1 clsF .fp32 (fused false false) g src k s

/-- va1.fms.kN: x × y − u, one rounding (R84). -/
def execVa1Fms (g : BitVec 4) (src : BitVec 10) (k : BitVec 3) (s : State) : Host.Outcome State Fault Refusal :=
  vaTrig3 1 clsF .fp32 (fused false true) g src k s

/-- va1.fnma.kN: u − x × y, one rounding (R84). -/
def execVa1Fnma (g : BitVec 4) (src : BitVec 10) (k : BitVec 3) (s : State) : Host.Outcome State Fault Refusal :=
  vaTrig3 1 clsF .fp32 (fused true false) g src k s

/-- va1.fclamp.kN: x clamped to y and u (R84). -/
def execVa1Fclamp (g : BitVec 4) (src : BitVec 10) (k : BitVec 3) (s : State) : Host.Outcome State Fault Refusal :=
  vaTrig3 1 clsF .fp32 (fun f x y u => fmin f (fmax f x y) u) g src k s

/-- va1.iclamp.kN: x clamped to y and u (R84). -/
def execVa1Iclamp (g : BitVec 4) (src : BitVec 10) (k : BitVec 3) (s : State) : Host.Outcome State Fault Refusal :=
  vaTrig3 1 clsI .int32 (fun f x y u => wrapI (width f) (min (max (ival f x) (ival f y)) (ival f u))) g src k s

/-- va1.sel.mN (R83). -/
def execVa1Sel (g : BitVec 4) (src : BitVec 10) (m : BitVec 3) (s : State) : Host.Outcome State Fault Refusal :=
  vaSel 1 g src m s

end Sys2Proof.Machine
end

