-- ==== Sys2Proof/Machine/Mx.lean ====
section
/-! DEFINITION. The matrix array, beat by beat (R151 to R168). -/

namespace Sys2Proof.Machine

/-! ## Formats of a beat (R153) -/

/-- Depth K of a Hold format, 0 for none. -/
def holdK : Fmt → Nat
  | .fp16 | .bf16 => 2
  | .e5m2 | .e4m3 | .int8 | .uint8 | .kb9 => 4
  | .e2m1 | .kb6 | .kb4 => 8
  | _ => 0
/-- Depth K of an A format, 0 for none. -/
def aK (f : Fmt) : Nat := if f.isKB then 0 else holdK f
/-- Bytes of a Hold row. -/
def rowB : Fmt → Nat
  | .kb9 => 288
  | .kb6 => 384
  | _ => 256
/-- How an untagged A buffer is read beside a Hold format. -/
def aUnt : Fmt → Fmt
  | .kb9 => .e4m3
  | .kb6 | .kb4 => .e2m1
  | f => f

/-- Bytes of a Hold bay (R152). -/
def bayBytes : Nat := 393216

/-- Tag of a Hold bay. -/
def Core.bayFmt (k : Core) (b : Nat) : Fmt := NMap.get .raw k.bayTag b
/-- Plane i of a core. -/
def Core.plane (k : Core) (i : Nat) : Plane := NMap.get Plane.init k.planes i
/-- Hold pointer i of a context. -/
def Ctx.hptr (x : Ctx) (i : Nat) : Nat := (NMap.get 0 x.hp i).toNat

/-- The region ids that the sectors of a Hold range carry, each once (R152, R168). -/
def Core.holdTags (k : Core) (off n : Nat) : List Nat :=
  (((List.range ((off + n - 1) / 64 - off / 64 + 1)).map (fun i => NMap.get 0 k.htags (off / 64 + i))).filter (· != 0)).eraseDups

/-- A counter map with region g raised, saturating at 2^64 − 1 (R363). -/
def bump (m : NMap Nat) (g n : Nat) : NMap Nat := NMap.put m g (min (NMap.get 0 m g + n) (2 ^ 64 - 1))

/-- One beat charged to each region whose id, plus one, is listed (R168, R240, R363). -/
def State.charge (s : State) (ids : List Nat) : State :=
  { s with beat := ids.foldl (fun m t => bump m (t - 1) 1) s.beat }

/-! ## Beats -/

/-- Plane named by a beat, drain or copy word. -/
def wPlane (w : Word) : Nat := fld w 0 5
/-- Hold pointer named by a beat word (R155). -/
def wHp (w : Word) : Nat := fld w 5 2

/-- Slices of an A operand: row s of a vector value (R158). -/
def sliceOf (m : NMap Lane) (s : Nat) : NMap Lane := lanesOf 64 (fun i => lane m (64 * s + i))

/-- mx.push of a value (R158). -/
def Ctx.push (x : Ctx) (a : VVal) : Ctx := { x with abuf := a.lanes, abTag := a.tag, abUnt := a.unt }
/-- mx.shift by n slices (R158). -/
def Ctx.shift (x : Ctx) (n : Nat) : Ctx :=
  { x with abuf := lanesOf 1024 (fun k => if k + 64 * n < 1024 then lane x.abuf (k + 64 * n) else 0) }

/-- Tags that mx.push and mx.pacc accept (R154). -/
def pushBad (a : VVal) : Bool := !a.unt && aK a.tag == 0

/-- The checks of R156 before any freeze, the freezes, and the checks after them, on the A buffer `x` leaves. -/
def beatOwn (s : State) (x : Ctx) (sparse : Bool) : List (Option Stop) :=
  let w := s.cx.bS 10
  let h := x.hptr (wHp w)
  let bay := h / bayBytes
  let f := s.ck.bayFmt bay
  [chk (fld w 10 54 != 0) (s.own 1),
   chk (!x.planes.getLsbD (wPlane w) || decide (16 ≤ bay) || !x.bays.getLsbD bay) (s.own 9),
   chk ((!x.abUnt && x.abTag == .raw) || (!bit w 9 && (s.ck.plane (wPlane w)).tag != .fp32)) (s.own 3),
   chk (x.copyHeld.getLsbD (wPlane w)) (s.own 0x0E),
   chk (s.ck.baySet s.iss.gid bay || (sparse && x.mdq.isEmpty)) (s.freezeAt 8),
   chk (holdK f == 0 || aK (if x.abUnt then aUnt f else x.abTag) != holdK f) (s.late 3),
   chk (decide (bayBytes * (bay + 1) < h + rowB f)) (s.late 0x0C)]

/-- A beat fires: its operands are latched, its landing is at +4, the shift, the advance and the charge take place
(R157, R159, R161, R168). -/
def fireBeat (port : Nat) (sparse : Bool) (t : State) : State :=
  let x := t.cx
  let w := x.bS 10
  let h := x.hptr (wHp w)
  let f := t.ck.bayFmt (h / bayBytes)
  let row := Mem.read t.ck.hold h (rowB f)
  let t1 := t.fly 4 (.beat port w x.rowm x.colm (sliceOf x.abuf 0) (sliceOf x.abuf 1)
    (if x.abUnt then aUnt f else x.abTag) row f (if sparse then x.mdq.headD 0 else 0) (marksHit t.ck.hmarks h (rowB f)))
  let y := t1.cx
  let y1 := if sparse then { y with mdq := y.mdq.drop 1 } else y
  let y2 := if bit w 8 then y1.shift (if sparse then 2 else 1) else y1
  let y3 := if bit w 7 then { y2 with hp := NMap.put y2.hp (wHp w) (BitVec.ofNat 23 (h + rowB f)) } else y2
  (t1.setCx y3).charge (t.ck.holdTags h (rowB f))

/-- Element b(k, j) of a Hold row (R152). -/
def bElem (f : Fmt) (row : List Byte) (j k : Nat) : FV :=
  if f.isKB then
    let e := j * holdK f + k
    kbElem f (leAt row (e / 16 * kbBytes f) (kbBytes f)) (e % 16)
  else decElem f (elem f (BitVec.ofNat 32 (leAt row (4 * j) 4)) k)

/-- The products of cell (i, j) (R159, R161). -/
def beatTerms (sparse : Bool) (a0 a1 : NMap Lane) (af : Fmt) (row : List Byte) (f : Fmt) (md : BitVec 1024) (i j : Nat) :
    List FV :=
  let kd := holdK f
  let a (l : Nat) : FV :=
    if l < kd then decElem af (elem af (lane a0 i) l) else decElem af (elem af (lane a1 i) (l - kd))
  if sparse then
    (List.range kd).map (fun k => (a (4 * (k / 2) + fld md (16 * j + 4 * (k / 2) + 2 * (k % 2)) 2)).mul (bElem f row j k))
  else (List.range kd).map (fun k => (a k).mul (bElem f row j k))

/-- A beat lands on its plane (R53, R159, R167). -/
def landBeat (s : State) (c port : Nat) (w rowm colm : Word) (a0 a1 : NMap Lane) (af : Fmt) (row : List Byte) (f : Fmt)
    (md : BitVec 1024) (bad : Bool) : State :=
  let s1 := s.updCore (c / 4) (fun k =>
    let p := k.plane (wPlane w)
    let cells := lanesOf 4096 (fun n =>
      if rowm.getLsbD (n / 64) && colm.getLsbD (n % 64) then
        let terms := beatTerms (port == 0x2F4) a0 a1 af row f md (n / 64) (n % 64)
        BitVec.ofNat 32 (encF .fp32 0 (sumFV (if bit w 9 then terms else decF .fp32 (lane p.cells n).toNat :: terms)))
      else lane p.cells n)
    { k with planes := NMap.put k.planes (wPlane w) ⟨cells, .fp32, p.taint || bad⟩ })
  if bad then s1.updLaunch (s.ctx c).launchId Launch.taintOnly else s1

/-- mx.push (R158). -/
def execMxPush (g : BitVec 4) (src : BitVec 10) (s : State) : Host.Outcome State Fault Refusal :=
  trigger s g src [chk (pushBad (s.cx.aV 10)) s.cls5] [] (fun t => t.setCx (t.cx.push (t.cx.aV 10)))

/-- mx.shift (R158). -/
def execMxShift (g : BitVec 4) (src : BitVec 10) (s : State) : Host.Outcome State Fault Refusal :=
  trigger s g src [] [] (fun t => t.setCx (t.cx.shift 1))

/-- mx.acc (R159). -/
def execMxAcc (g : BitVec 4) (src : BitVec 10) (s : State) : Host.Outcome State Fault Refusal :=
  trigger s g src [] (beatOwn s s.cx false) (fireBeat 0x2F2 false)

/-- mx.pacc: push, then acc on the new slice 0 (R159). -/
def execMxPacc (g : BitVec 4) (src : BitVec 10) (s : State) : Host.Outcome State Fault Refusal :=
  trigger s g src [chk (pushBad (s.cx.aV 10)) s.cls5] (beatOwn s (s.cx.push (s.cx.aV 10)) false)
    (fun t => fireBeat 0x2F3 false (t.setCx (t.cx.push (t.cx.aV 10))))

/-- mx.sacc: 2:4-sparse accumulate (R161). -/
def execMxSacc (g : BitVec 4) (src : BitVec 10) (s : State) : Host.Outcome State Fault Refusal :=
  trigger s g src [] (beatOwn s s.cx true) (fireBeat 0x2F4 true)

/-! ## Drain (R163) -/

/-- Target format of a drain word. -/
def drainFmt (w : Word) : Fmt := Fmt.ofCodeRaw (fld w 11 5)

/-- mx.drain (R163). -/
def execMxDrain (g : BitVec 4) (src : BitVec 10) (s : State) : Host.Outcome State Fault Refusal :=
  let w := s.cx.bS 10
  trigger s g src []
    [chk (fld w 19 45 != 0) (s.own 1), chk (!s.cx.planes.getLsbD (wPlane w)) (s.own 9),
     chk (fld w 11 5 == 0 || decide (5 < fld w 11 5) || (s.ck.plane (wPlane w)).tag != .fp32) (s.own 3),
     chk (s.cx.copyHeld.getLsbD (wPlane w)) (s.own 0x0E)]
    (fun t => t.fly 4 (.drain w t.cx.colm false))

/-- A drain lands one plane row in mx.q (R163). -/
def landDrain (s : State) (c : Nat) (w colm : Word) : State :=
  let x := s.ctx c
  let p := (s.core (c / 4)).plane (wPlane w)
  let f := drainFmt w
  let row := fld w 5 6
  let n := perLane f
  let q : VVal := match x.port 0x094 with | .v v => v | .s _ => VVal.zero
  let old := if q.tag == f then q.lanes else []
  let r := row % 16
  let lanes := lanesOf 1024 (fun k =>
    if k / 64 = r then
      if 64 / n ≤ k % 64 then 0
      else packLane f (fun e =>
        let j := k % 64 * n + e
        if colm.getLsbD j then encElem f (fld w 16 3) (decF .fp32 (lane p.cells (64 * row + j)).toNat)
        else elem f (lane old k) e)
    else lane old k)
  s.setCtx c { x with resQ := NMap.put x.resQ 10 (.v ⟨lanes, f, false⟩) }

/-! ## Pointers and masks (R162) -/

/-- mx.hpset (R162). -/
def execMxHpset (g : BitVec 4) (src : BitVec 10) (s : State) : Host.Outcome State Fault Refusal :=
  let w := s.cx.bS 10
  trigger s g src []
    [chk (fld w 26 38 != 0 || bit w 23) (s.own 1), chk (fld w 0 23 % 32 != 0) (s.own 0x0C)]
    (fun t => t.setCx { t.cx with hp := NMap.put t.cx.hp (fld w 24 2) (BitVec.ofNat 23 (fld w 0 23)) })

/-- Bit i from bit 0 of lane (0, i). -/
def maskBits (a : VVal) : Word :=
  BitVec.ofNat 64 (((List.range 64).filter (fun i => (lane a.lanes i).getLsbD 0)).foldl (fun m i => m + 2 ^ i) 0)
/-- Tags that mx.rmask and mx.cmask refuse (R154). -/
def maskBad (a : VVal) : Bool := !a.unt && a.tag != .mask

/-- mx.rmask (R162). -/
def execMxRmask (g : BitVec 4) (src : BitVec 10) (s : State) : Host.Outcome State Fault Refusal :=
  trigger s g src [chk (maskBad (s.cx.aV 10)) s.cls5] [] (fun t => t.setCx { t.cx with rowm := maskBits (t.cx.aV 10) })

/-- mx.cmask (R162). -/
def execMxCmask (g : BitVec 4) (src : BitVec 10) (s : State) : Host.Outcome State Fault Refusal :=
  trigger s g src [chk (maskBad (s.cx.aV 10)) s.cls5] [] (fun t => t.setCx { t.cx with colm := maskBits (t.cx.aV 10) })

/-! ## Plane copies (R164) and the metadata queue (R161) -/

/-- A plane copy is accepted as a pending command and holds its plane (R164). -/
def mxCopy (port : Nat) (g : BitVec 4) (src : BitVec 10) (s : State) : Host.Outcome State Fault Refusal :=
  let w := s.cx.bS 10
  let off := 64 * fld w 36 10
  trigger s g src []
    [chk (fld w 14 22 != 0 || fld w 5 3 != 0) (s.own 1),
     chk (!s.cx.planes.getLsbD (wPlane w) || s.cx.tileOut (fld w 8 6) off 16384 || !s.cx.inWindow (8 * fld w 46 18) 8) (s.own 9),
     chk (s.cx.copyHeld.getLsbD (wPlane w)) (s.own 0x0E), admission s (8 * fld w 46 18)]
    (fun t =>
      let x := t.cx
      (t.setCx { x with
        copyHeld := x.copyHeld ||| BitVec.twoPow 32 (wPlane w)
        copyCw := NMap.put x.copyCw (wPlane w) (8 * fld w 46 18) }).accept
        { t.newCmd port 0 w with
          ranges := [(x.tileAt (fld w 8 6) off, 16384)], cw := 8 * fld w 46 18, plane := some (wPlane w), nsec := 256 })

/-- mx.accxld (R164). -/
def execMxAccxld (g : BitVec 4) (src : BitVec 10) (s : State) : Host.Outcome State Fault Refusal := mxCopy 0x2FA g src s

/-- mx.accxst (R164). -/
def execMxAccxst (g : BitVec 4) (src : BitVec 10) (s : State) : Host.Outcome State Fault Refusal := mxCopy 0x2FB g src s

/-- mx.mdq: the metadata queue is filled from tile SRAM (R161). -/
def execMxMdq (g : BitVec 4) (src : BitVec 10) (s : State) : Host.Outcome State Fault Refusal :=
  let w := s.cx.bS 10
  let off := 64 * fld w 36 10
  let n := fld w 6 7
  trigger s g src []
    [chk (fld w 13 23 != 0 || n == 0 || decide (64 < n)) (s.own 1),
     chk (s.cx.tileOut (fld w 0 6) off (128 * n) || !s.cx.inWindow (8 * fld w 46 18) 8) (s.own 9),
     chk (decide (64 < s.cx.mdq.length + s.cx.mdqPromised + n)) (s.own 4), admission s (8 * fld w 46 18)]
    (fun t =>
      let x := t.cx
      (t.setCx { x with mdqPromised := x.mdqPromised + n }).accept
        { t.newCmd 0x2FC 0 w with
          ranges := [(x.tileAt (fld w 0 6) off, 128 * n)], cw := 8 * fld w 46 18, nsec := 2 * n })

end Sys2Proof.Machine
end

