-- ==== Sys2Proof/Machine/Wr.lean ====
section
/-! DEFINITION. The Weir array in threshold mode (R229 to R240). -/

namespace Sys2Proof.Machine

/-! ## Records (R230) -/

/-- Record of cell (i, j). -/
def Ctx.record (x : Ctx) (i j : Nat) : BitVec 128 := NMap.get 0 x.recs (64 * i + j)
/-- Feature f of a sample row, none where THF gives it no place (R234, R235). -/
def feature (thf : Fmt) (row : NMap Lane) (f : Nat) : Option Nat :=
  let n := perLane thf
  if f < 64 * n then some (elem thf (lane row (f / n)) (f % n)) else none

/-- A cell's contribution (R235). -/
def cell (thf : Fmt) (row : NMap Lane) (r : BitVec 128) : Word :=
  let v := feature thf row (fld r 80 8)
  let missing := match v with
    | none => true
    | some c => if thf = Fmt.bf16 then (decF .bf16 c).isNan else c == 255
  let left := if missing then bit r 88 else
    if thf = Fmt.bf16 then (decF .bf16 (v.getD 0)).lt (decF .bf16 (fld r 64 16)) else decide (v.getD 0 < fld r 64 8)
  if !bit r 89 || left then BitVec.allOnes 64 else BitVec.ofNat 64 (fld r 0 64)

/-- The AND of what the cells of a column contribute; in a chained pair only cells of the half named count (R236). -/
def column (x : Ctx) (row : NMap Lane) (j : Nat) (half : Option Bool) : Word :=
  (List.range 64).foldl (fun a i =>
    let r := x.record i j
    if half.isNone || half == some (bit r 90) then a &&& cell x.thf row r else a) (BitVec.allOnes 64)

/-- The lowest set bit below n of a number, or 0xFF (R236). -/
def lowest (a n : Nat) : Nat := ((List.range n).find? (fun k => a.testBit k)).getD 255

/-- Exit-leaf index of column j (R236). -/
def exitLeaf (x : Ctx) (row : NMap Lane) (j : Nat) : Nat :=
  if x.chain.getLsbD (j / 2) then
    if j % 2 = 1 then 254
    else if !x.ten.getLsbD j then 255
    else
      let h := column x row j (some true) &&& column x row (j + 1) (some true)
      let l := column x row j (some false) &&& column x row (j + 1) (some false)
      lowest (h.toNat * 2 ^ 64 + l.toNat) 128
  else if !x.ten.getLsbD j then 255
  else lowest (column x row j none).toNat 64

/-! ## Configuration and loading (R232, R233) -/

/-- wr.cfg (R232). -/
def execWrCfg (g : BitVec 4) (src : BitVec 10) (s : State) : Host.Outcome State Fault Refusal :=
  let a := s.cx.aV 11
  let w := s.cx.bS 11
  trigger s g src [chk (maskBad a) s.cls5]
    [chk (fld w 6 26 != 0) (s.own 1), chk (fld w 0 5 != 2 && fld w 0 5 != 0x0B) (s.own 3)]
    (fun t =>
      let x := t.cx
      let y := if bit w 5 then { x with recs := [], rtags := [], wtaint := false } else x
      t.setCx { y with thf := Fmt.ofCodeRaw (fld w 0 5), chain := BitVec.ofNat 32 (fld w 32 32), ten := maskBits a })

/-- The records of a Hold row at cells (i, 0) to (i, 63). -/
def Ctx.loadRow (x : Ctx) (i : Nat) (row : List Byte) : Ctx :=
  { x with recs := (List.range 64).foldl (fun m j =>
      let r := BitVec.ofNat 128 (leAt row (16 * j) 16)
      if r = 0 then NMap.del m (64 * i + j) else NMap.put m (64 * i + j) r) x.recs }

/-- wr.load (R233); the pointer is the one at issue, and ADV follows the effect of an mx trigger of the group. -/
def execWrLoad (g : BitVec 4) (src : BitVec 10) (s : State) : Host.Outcome State Fault Refusal :=
  let w := s.cx.bS 11
  let p := fld w 7 2
  let h := (NMap.get 0 s.iss.hp0 p).toNat
  let bay := h / bayBytes
  let tags := s.ck.holdTags h 1024
  trigger s g src []
    [chk (fld w 9 55 != 0) (s.own 1), chk (decide (16 ≤ bay) || !s.cx.bays.getLsbD bay) (s.own 9),
     chk (decide (bayBytes * (bay + 1) < h + 1024)) (s.own 0x0C), chk (s.cx.thf == .raw) (s.own 3),
     chk (s.ck.baySet s.iss.gid bay) (s.freezeAt 8), chk (decide (1 < tags.length)) (s.late 9),
     chk (s.ck.bayFmt bay != s.cx.thf) (s.late 3)]
    (fun t =>
      let i := fld w 0 6
      let x := t.cx.loadRow i (Mem.read t.ck.hold h 1024)
      let bad := marksHit t.ck.hmarks h 1024
      let y := { x with
        rtags := if tags.headD 0 = 0 then NMap.del x.rtags i else NMap.put x.rtags i (tags.headD 0)
        hp := if bit w 6 then NMap.put x.hp p (NMap.get 0 x.hp p + 1024) else x.hp
        wtaint := x.wtaint || bad }
      let t1 := t.setCx y
      if bad then t1.updLaunch y.launchId Launch.taintOnly else t1)

/-! ## Beats and leaves (R234 to R237, R240) -/

/-- Row r of a vector value as 64 lanes. -/
def rowOf (v : VVal) (r : Nat) : NMap Lane := sliceOf v.lanes r

/-- wr.beat: the result is fixed at issue and lands at +6 (R234 to R236); each region tag held is charged (R240). -/
def execWrBeat (g : BitVec 4) (src : BitVec 10) (s : State) : Host.Outcome State Fault Refusal :=
  let a := s.cx.aV 11
  let w := s.cx.bS 11
  trigger s g src [chk (s.cx.thf == .raw || (!a.unt && a.tag != s.cx.thf)) s.cls5] [chk (fld w 8 56 != 0) (s.own 1)]
    (fun t =>
      let row := rowOf a (fld w 0 4)
      (t.fly 6 (.wbeat (fld w 4 4) (lanesOf 64 (fun j => BitVec.ofNat 32 (exitLeaf t.cx row j))) false false)).charge
        ((t.cx.rtags.map (fun e => e.2)).filter (· != 0)).eraseDups)

/-- A row written into a result port of the unit, whose value is cleared where its tag changes (R236, R237). -/
def Ctx.putRow (x : Ctx) (second : Bool) (drow : Nat) (tag : Fmt) (row : NMap Lane) : Ctx :=
  let q : VVal := match x.port (if second then 0x097 else 0x096) with | .v v => v | .s _ => VVal.zero
  let old := if q.tag == tag then q.lanes else []
  let v : PVal := .v ⟨lanesOf 1024 (fun k => if k / 64 = drow then lane row (k % 64) else lane old k), tag, false⟩
  if second then { x with resQ2 := NMap.put x.resQ2 11 v } else { x with resQ := NMap.put x.resQ 11 v }

/-- A Weir beat lands in wr.q (R236). -/
def landWbeat (s : State) (c drow : Nat) (idx : NMap Lane) : State := s.updCtx c (fun x => x.putRow false drow .int32 idx)

/-- Leaves per tree slot of a leaf word. -/
def leafS (w : Word) : Nat := if bit w 20 then 128 else 64
/-- Window offset of the entry that lane j of an index row reads, none for an index of 128 or more (R237). -/
def leafOff (w : Word) (idx : NMap Lane) (j : Nat) : Option Nat :=
  let e := (lane idx j).toNat
  if 128 ≤ e then none else some (64 * fld w 21 10 + 4 * (leafS w * j + e))
/-- The window offsets that a leaf gather reads. -/
def leafOffs (w : Word) (idx : NMap Lane) : List Nat := (List.range 64).filterMap (leafOff w idx)

/-- wr.leaf: fired with its indices, read at +5 and landed at +7 (R237). -/
def execWrLeaf (g : BitVec 4) (src : BitVec 10) (s : State) : Host.Outcome State Fault Refusal :=
  let a := s.cx.aV 11
  let w := s.cx.bS 11
  let idx := rowOf a (fld w 0 4)
  let t := fld w 8 6
  trigger s g src [chk (!a.unt && a.tag != .int32) s.cls5]
    [chk (fld w 31 33 != 0 || fld w 14 6 != 0) (s.own 1),
     chk (s.cx.tileOut t 0 0 || (leafOffs w idx).any (fun o => s.cx.tileOut t o 4)) (s.own 9),
     chk (s.cx.ttagOf t != .fp32 && s.cx.ttagOf t != .int32) (s.own 3),
     chk ((leafOffs w idx).any (fun o => s.ck.held s.iss.gid (s.cx.tileAt t o) 4)) (s.freezeAt 8)]
    (fun u => u.fly 7 (.wleaf w idx none))

/-- The reads of a leaf gather at the start of n + 5, and the table's tag as it stands then (R237). -/
def readLeaf (s : State) (c : Nat) (w : Word) (idx : NMap Lane) : NMap Lane × Fmt :=
  let x := s.ctx c
  let t := fld w 8 6
  (lanesOf 64 (fun j => match leafOff w idx j with
    | none => 0
    | some o => BitVec.ofNat 32 (Mem.readLE (s.core (c / 4)).tile (x.tileAt t o) 4)), x.ttagOf t)

/-- A leaf gather reads: its values wait in the snapshot buffer, and marked bytes taint the launch (R237, R352). -/
def performLeaf (s : State) (c fid : Nat) (w : Word) (idx : NMap Lane) : State :=
  let x := s.ctx c
  let v := readLeaf s c w idx
  let s1 := (leafOffs w idx).foldl (fun s o => s.taintTile c (x.tileAt (fld w 8 6) o) 4) s
  s1.updCtx c (fun x => { x with snap := x.snap.map (fun f => if f.fid = fid then { f with item := .wleaf w idx (some v) } else f) })

/-- A leaf gather lands in wr.q2 (R237). -/
def landWleaf (s : State) (c : Nat) (w : Word) (vals : Option (NMap Lane × Fmt)) : State :=
  match vals with
  | none => s
  | some v => s.updCtx c (fun x => x.putRow true (fld w 4 4) v.2 v.1)

end Sys2Proof.Machine
end

