-- ==== Sys2Proof/Machine/Finish.lean ====
section
/-! DEFINITION. How a pending command ends: its completion word (R144), what a failed command leaves (R145, R161, R164,
R255), the tags a completed one sets, and the cancellation of a collective or an exchange (R250, R254, R262). -/

namespace Sys2Proof.Machine

/-- A completion word (R144): FIRST, DONE and CODE. -/
def cwWord (code first : Nat) : Word := BitVec.ofNat 64 (256 + code + (if code = 0 then 0 else first % 65536 * 2 ^ 32))

/-- The pending command of a core, in the core or with a saved task. -/
def State.findCmd (s : State) (core id : Nat) : Option Cmd :=
  ((s.core core).cmds.find? (fun k => k.id == id)).or
    ((s.saved.flatMap (fun v => v.cmds)).find? (fun k => k.id == id && k.c / 4 == core))
/-- The command changes, wherever it stands. -/
def State.updCmd (s : State) (core id : Nat) (f : Cmd → Cmd) : State :=
  let g (l : List Cmd) := l.map (fun k => if k.id = id then f k else k)
  let s1 := s.updCore core (fun k => { k with cmds := g k.cmds })
  { s1 with saved := s1.saved.map (fun v => if v.c / 4 = core then { v with cmds := g v.cmds } else v) }

/-- Commands of the device that are pending, in their cores or with saved tasks. -/
def State.allCmds (s : State) : List Cmd := s.cores.flatMap (fun e => e.2.cmds) ++ s.saved.flatMap (fun v => v.cmds)

/-- The sectors of a command not yet done. -/
def Cmd.left (k : Cmd) : List Nat := (List.range k.nsec).filter (fun i => !k.done.contains i)

/-- Tile-SRAM bytes of a core written zero. -/
def State.zeroTile (s : State) (core off n : Nat) : State := s.updCore core (fun k => k.putTile off (List.replicate n 0))
/-- The tag of a tile register of the task that issued a command, where that task still runs. -/
def State.tagTile (s : State) (k : Cmd) (t : Nat) (f : Fmt) : State :=
  let x := s.ctx k.c
  if x.task = some k.task then s.setCtx k.c { x with ttag := NMap.put x.ttag t f } else s
/-- Hold offset of a command's bay range. -/
def Cmd.holdOff (k : Cmd) : Nat := bayBytes * k.bay.getD 0 + 64 * fld k.b 33 13

/-- Source bytes of a collective (R253): block, ranks, kind, this rank, root. -/
def collSrc (kind b n rank root : Nat) : Nat :=
  if kind = 2 then (if rank = root then b else 0) else if kind = 4 then n * b else b
/-- Destination bytes of a collective (R253). -/
def collDst (kind b n rank root : Nat) : Nat :=
  if kind = 1 then (if rank = root then b else 0) else if kind = 3 then n * b else b
/-- Block bytes of a collective descriptor (R251). -/
def descB (d : BitVec 1024) : Nat := 64 * secs (fld d 32 10)
/-- Source bytes of a descriptor's command. -/
def descSrc (d : BitVec 1024) : Nat := collSrc (fld d 0 3) (descB d) (fld d 192 10 + 1) (fld d 202 10) (fld d 212 10)
/-- Destination bytes of a descriptor's command. -/
def descDst (d : BitVec 1024) : Nat := collDst (fld d 0 3) (descB d) (fld d 192 10 + 1) (fld d 202 10) (fld d 212 10)
/-- Sequence number of a descriptor. -/
def descSeq (d : BitVec 1024) : BitVec 32 := BitVec.ofNat 32 (fld d 128 32)

/-- What a failed command leaves (R145, R161, R164, R255). -/
def failEffect (s : State) (core : Nat) (k : Cmd) : State :=
  let r (i : Nat) := k.ranges.getD i (0, 0)
  if k.port = 0x340 ∨ k.port = 0x352 then (s.zeroTile core (r 0).1 (r 0).2).tagTile k (tileReg k.b) .raw
  else if k.port = 0x342 then s.updCore core (fun c =>
    let d := c.putHold k.holdOff (List.replicate (64 * k.nsec) 0)
    { d with
      bayTag := NMap.put d.bayTag (k.bay.getD 0) .raw
      htags := d.htags.filter (fun e => !(decide (k.holdOff / 64 ≤ e.1) && decide (e.1 < k.holdOff / 64 + k.nsec))) })
  else if 0x348 ≤ k.port ∧ k.port ≤ 0x34F then (s.zeroTile core (r 1).1 (r 1).2).tagTile k (fld k.a 8 6) .raw
  else if k.port = 0x2FA then s.updCore core (fun c => { c with planes := NMap.put c.planes (k.plane.getD 0) Plane.init })
  else if k.port = 0x2FC then s.updCtx k.c (fun x =>
    if x.task = some k.task then
      { x with mdq := x.mdq ++ List.replicate (k.nsec / 2) 0, mdqPromised := x.mdqPromised - k.nsec / 2 } else x)
  else if k.port = 0x338 then
    if descDst k.info = 0 then s
    else
      let d := k.ranges.getLast?.getD (0, 0)
      (s.zeroTile core d.1 d.2).tagTile k (fld k.info 176 6) .raw
  else s

/-- The tags that a completed command sets (R140, R141, R147, R164, R255, R270). -/
def okEffect (s : State) (core : Nat) (k : Cmd) : State :=
  if k.port = 0x340 ∨ k.port = 0x352 then s.tagTile k (tileReg k.b) (Fmt.ofCodeRaw (fld k.b 16 5))
  else if k.port = 0x342 then
    s.updCore core (fun c => { c with bayTag := NMap.put c.bayTag (k.bay.getD 0) (Fmt.ofCodeRaw (fld k.b 16 5)) })
  else if 0x348 ≤ k.port ∧ k.port ≤ 0x34F then s.tagTile k (fld k.a 8 6) (Fmt.ofCodeRaw (fld k.a 16 5))
  else if k.port = 0x2FB then s.tagTile k (fld k.b 8 6) .fp32
  else if k.port = 0x338 ∧ descDst k.info ≠ 0 then s.tagTile k (fld k.info 176 6) (Fmt.ofCodeRaw (fld k.info 8 5))
  else s

/-- Bytes of tile SRAM that an access of ls or a leaf gather has still to read or write: offset and length (R132, R237). -/
def Ctx.lsBytes (x : Ctx) (i : Item) : List (Nat × Nat) :=
  match i with
  | .lsLoad a z _ | .lsStore a z _ => [(a, z)]
  | .lsVld _ a | .lsVst _ a _ => [(a, 4096)]
  | .wleaf w idx none => (leafOffs w idx).map (fun o => (x.tileAt (fld w 8 6) o, 4))
  | _ => []
/-- An ls access or leaf gather of a context, fired before an identity, has still to perform on bytes of tile SRAM (R143). An
access fired in the same group as a command counts as fired before its acceptance where its trigger stands earlier in the
group: DESIGN CHOICE, since R143 orders them by cycles only (log 56). -/
def Ctx.lsPending (x : Ctx) (id off n : Nat) : Bool :=
  x.snap.any (fun f => decide (f.fid < id) && (x.lsBytes f.item).any (fun r => meets r.1 r.2 off n))
/-- The same of any context of a core. -/
def State.lsPending (s : State) (core id off n : Nat) : Bool :=
  (List.range 4).any (fun j => (s.ctx (4 * core + j)).lsPending id off n)
/-- The command may touch the bytes of tile SRAM (R143). -/
def State.tileFree (s : State) (core : Nat) (k : Cmd) (off n : Nat) : Bool :=
  !((s.core core).cmds.any (fun m => decide (m.id < k.id) && m.holds off n)) && !s.lsPending core k.id off n
/-- The command may touch its Hold bay (R143). -/
def State.bayFree (s : State) (core : Nat) (k : Cmd) : Bool :=
  !((s.core core).cmds.any (fun m => decide (m.id < k.id) && m.bay.isSome && m.bay == k.bay))

/-- A plane copy to tile SRAM or a tile store keeps what it wrote when it ends with a code (R145, R164). -/
def Cmd.keeps (k : Cmd) (code : Nat) : Bool := code == 0 || (k.port == 0x2FB && code == 1)

/-- The command may write what its end writes: its completion word, and the ranges and the bay that a failed one leaves zero
(R143 to R145). -/
def State.endFree (s : State) (core : Nat) (k : Cmd) (code : Nat) : Bool :=
  s.tileFree core k k.cw 8 && (k.keeps code || (k.ranges.all (fun r => s.tileFree core k r.1 r.2) && s.bayFree core k))

/-- A command's entry leaves the queue that holds it, in its context or with what is kept of a saved task. -/
def State.retire (s : State) (c id : Nat) : State :=
  let drop (x : Ctx) : Ctx := (x.dequeue .cmd id).dequeue .nm id
  let s1 := s.updCtx c drop
  { s1 with saved := s1.saved.map (fun v => if v.c = c ∧ v.cmds.any (fun k => k.id == id) then { v with kept := drop v.kept } else v) }

/-- The command ends: its effect, its completion word as one store, and its held ranges gone (R144); while the bytes it is
to write are not its turn, it stays pending with its code (R143). For a task that is saved, the word waits for the
restore. -/
def finish (s : State) (core id code0 first0 : Nat) : State :=
  match (s.core core).cmds.find? (fun k => k.id == id) with
  | some k =>
    let v := k.ended.getD (code0, first0)
    let code := v.1
    if !s.endFree core k code then
      s.updCmd core id (fun m => { m with ended := some v, done := m.done ++ m.left, moored := [], parked := false })
    else
      let s1 := if k.keeps code then okEffect s core k else failEffect s core k
      let s2 := s1.updCore core (fun c =>
        { (c.putTile k.cw (leBytes 8 (cwWord code v.2).toNat)) with cmds := c.cmds.filter (fun m => m.id != id) })
      s2.updCtx k.c (fun x => (x.dequeue .cmd id).dequeue .nm id)
  | none =>
    let s1 := s.updCmd core id (fun k =>
      let v := k.ended.getD (code0, first0)
      { k with fin := some (cwWord v.1 v.2), moored := [], parked := false })
    { s1 with saved := s1.saved.map (fun v =>
      if v.c / 4 = core then { v with kept := (v.kept.dequeue .cmd id).dequeue .nm id } else v) }

/-- Home lock-keeper of a core (R241). -/
def homeOf (core : Nat) : Nat := 6 * (core / 96) + core % 12 / 2

end Sys2Proof.Machine
end

