-- ==== Sys2Proof/Machine/Seq.lean ====
section
/-! DEFINITION. Collectives and exchanges as a whole (R250, R254, R255, R262, R268): which ranks have joined, how their
commands are compared, how they end on every rank, and what devices tell one another for it (log 57). -/

namespace Sys2Proof.Machine

/-! ## Names of a collective or exchange -/

/-- Sequence number of a descriptor or map. -/
def seqOf (port : Nat) (m : BitVec 1024) : BitVec 32 := if port = 0x338 then descSeq m else mapSeq m
/-- Number of ranks of a descriptor or map. -/
def ranksOf (port : Nat) (m : BitVec 1024) : Nat := if port = 0x338 then fld m 192 10 + 1 else mapN m
/-- MYRANK of a descriptor or map. -/
def rankOf (port : Nat) (m : BitVec 1024) : Nat := if port = 0x338 then fld m 202 10 else mapRank m
/-- The command has joined: an exchange does so at its acceptance, a collective once its rank table has been read (R252,
R261). -/
def Cmd.hasJoined (k : Cmd) : Bool := k.port != 0x338 || k.prog == 1

/-- Pending commands of a launch that have joined under a sequence number: core and identity. -/
def State.seqCmds (s : State) (launch : Word) (port : Nat) (seq : BitVec 32) : List (Nat × Nat) :=
  (s.allCmds.filter (fun k => k.task.launch == launch && k.port == port && k.fin.isNone && k.hasJoined && seqOf port k.info == seq)).map
    (fun k => (k.c / 4, k.id))
/-- Every command of a sequence on this device ends with a code (R250, R254, R255, R262, R268). -/
def endSeq (s : State) (launch : Word) (port : Nat) (seq : BitVec 32) (code : Nat) : State :=
  (s.seqCmds launch port seq).foldl (fun s e => finish s e.1 e.2 code 0) s

/-- The record is that of a sequence number of a launch. -/
def SeqRec.isFor (r : SeqRec) (launch : Word) (port : Nat) (seq : BitVec 32) : Bool :=
  r.launch == launch && r.port == port && r.seq == seq
/-- Every rank has joined. -/
def SeqRec.full (r : SeqRec) : Bool :=
  match r.joined with
  | [] => false
  | j :: _ => decide (ranksOf r.port j.info ≤ r.joined.length)
/-- It is under way: it has neither ended nor begun to fail (R255, R268). -/
def SeqRec.live (r : SeqRec) : Bool := r.failed.isNone && r.told == []
/-- It has ended with a code: ranks still to join end with it too, and with none left it is over (R254, R255, R262, R268). -/
def SeqRec.ends (r : SeqRec) (code : Nat) : SeqRec := { r with failed := some (if r.full then 0 else code), told := [] }
/-- Every rank of a collective or exchange has joined it, and all agree (R254, R262). -/
def State.allJoined (s : State) (launch : Word) (port : Nat) (seq : BitVec 32) : Bool :=
  s.seqs.any (fun r => r.isFor launch port seq && r.live && r.full)
/-- The exchange has begun to fail, and its commands wait for the code that all devices agree on (R268). -/
def State.failing (s : State) (launch : Word) (seq : BitVec 32) : Bool :=
  s.seqs.any (fun r => r.isFor launch 0x350 seq && r.failed.isNone && r.told != [])

/-! ## Notes to the other devices -/

/-- A header that names a sequence number and, as the DEV of its entry, the device that is told. -/
def seqHdr (seq : BitVec 32) (dev : Nat) : BitVec 512 := BitVec.ofNat 512 (seq.toNat * 2 ^ 32 + dev % 2 ^ 16 * 2 ^ 172)
/-- A note goes to another device. -/
def State.note (s : State) (launch : Word) (rank dev : Nat) (hdr : BitVec 512) (n : Note) : State :=
  { s with
    outbound := s.outbound ++ [⟨s.nextId, dev, 0, none, 0, .pkt ⟨hdr, [], launch, 0, rank, 0, n⟩, []⟩]
    nextId := s.nextId + 1 }
/-- A note goes to every other device of a launch. -/
def State.tell (s : State) (launch : Word) (seq : BitVec 32) (n : Note) : State :=
  match s.launchOf launch with
  | none => s
  | some l => ((List.range l.ndev).filter (· != l.rank)).foldl (fun s d => s.note launch l.rank d (seqHdr seq d) n) s

/-! ## Ends on every rank -/

/-- The lowest code of a list of failures, 0 of none (R268). -/
def lowCode (l : List Nat) : Nat := if l = [] then 0 else l.foldl min 7
/-- Codes met so far in an exchange, as far as this device knows (R268). -/
def State.metCodes (s : State) (launch : Word) (seq : BitVec 32) : List Nat :=
  ((s.seqs.filter (fun r => r.isFor launch 0x350 seq && r.failed.isNone)).flatMap (fun r =>
      r.joined.filterMap (fun j => j.through) ++ r.told.map (fun e => e.2)) ++
    (s.allCmds.filter (fun k => k.task.launch == launch && k.port == 0x350 && k.fin.isNone && seqOf 0x350 k.info == seq)).flatMap
      (fun k => k.fails.map (fun f => f.2))).filter (· != 0)
/-- The code that a failure gives its collective or exchange: of an exchange the lowest met (R255, R268). -/
def State.failCode (s : State) (launch : Word) (port : Nat) (seq : BitVec 32) (code : Nat) : Nat :=
  if port = 0x350 then lowCode (code :: s.metCodes launch seq) else code

/-- The packet carries an aqueduct block. -/
def isBlock (p : Packet) : Bool := fld p.hdr 188 4 == 4
/-- Packets, accumulators, held arrivals and accepted emits of a sequence are discarded (R250, R262). -/
def purgeSeq (s : State) (launch : Word) (port : Nat) (seq : BitVec 32) : State :=
  let other (p : Packet) : Bool := p.note.isMem || !(p.launch == launch && fld p.hdr 32 32 == seq.toNat && isBlock p == (port == 0x350))
  let mine (e : Emit) : Bool := match s.findCmd e.core e.cmd with
    | some k => k.task.launch == launch && port == 0x338 && descSeq k.info == seq
    | none => true
  { s with
    packets := s.packets.filter other
    keepers := s.keepers.map (fun (e : Nat × Keeper) => (e.1, { e.2 with
      accs := e.2.accs.filter (fun a => !(port == 0x338 && a.launch == launch && a.seq == seq))
      emits := e.2.emits.filter (fun m => !mine m)
      buf := e.2.buf.filter other })) }

/-- A collective or exchange is cancelled on this device: its commands end with CANCELLED, its sequence number is closed, and
what travels of it is discarded (R250, R254, R262). -/
def cancelHere (s : State) (launch : Word) (port : Nat) (seq : BitVec 32) : State :=
  let s1 := purgeSeq s launch port seq
  let s2 := (endSeq s1 launch port seq 7).updLaunch launch (fun l =>
    if port = 0x338 then { l with closedSeq := if l.closedSeq.contains seq then l.closedSeq else l.closedSeq ++ [seq] }
    else { l with closedAq := if l.closedAq.contains seq then l.closedAq else l.closedAq ++ [seq] })
  { s2 with seqs := s2.seqs.filter (fun r => !r.isFor launch port seq) }
/-- A collective or exchange is cancelled on every rank. -/
def cancelSeq (s : State) (launch : Word) (port : Nat) (seq : BitVec 32) : State :=
  (cancelHere s launch port seq).tell launch seq (.ended port 7 false)
/-- A plan fault (R250): the collective is cancelled on every rank, the verdict is TAINTED, and the event is recorded. -/
def planFault (s : State) (launch : Word) (seq : BitVec 32) (lk : Nat) : State :=
  (((cancelHere s launch 0x338 seq).tell launch seq (.ended 0x338 7 true)).updLaunch launch Launch.taintOnly).event 0x0D 1 0 launch
    (400 + lk)

/-- A collective or exchange has failed with a code: its commands on this device end with it, and so do the ranks that join it
later (R255, R268). One that is over here, or has failed here, stays so. -/
def failHere (s : State) (launch : Word) (port : Nat) (seq : BitVec 32) (code : Nat) : State :=
  let s1 := endSeq (purgeSeq s launch port seq) launch port seq code
  if s1.seqs.any (fun r => r.isFor launch port seq) then
    { s1 with seqs := s1.seqs.map (fun r => if r.isFor launch port seq && r.failed.isNone then r.ends code else r) }
  else { s1 with seqs := s1.seqs ++ [⟨launch, port, seq, [], some code, []⟩] }

/-- A device has ended its part of an exchange, with the lowest code that it has met (R268). -/
def noteFailing (s : State) (launch : Word) (seq : BitVec 32) (dev code : Nat) : State :=
  let open' (r : SeqRec) : Bool := r.isFor launch 0x350 seq && r.failed.isNone
  if s.seqs.any open' then { s with seqs := s.seqs.map (fun r => if open' r then { r with told := r.told ++ [(dev, code)] } else r) }
  else { s with seqs := s.seqs.filter (fun r => !(r.isFor launch 0x350 seq && r.failed == some 0)) ++
    [⟨launch, 0x350, seq, [], none, [(dev, code)]⟩] }
/-- No way leads to another device any more: every route to it is dead or cut off (R228, R356). -/
def State.unreached (s : State) (l : Launch) (dev : Nat) : Bool :=
  dev != l.rank && (List.range 4).all (fun die => s.path l die dev == 99 || s.cutOff die (s.path l die dev / 6))
/-- Once every device of the launch that can be reached has ended its part of an exchange, its commands end with the lowest code of
all (R268). -/
def agreeAq (s : State) (l : Launch) (seq : BitVec 32) : State :=
  match s.seqs.find? (fun r => r.isFor l.id 0x350 seq && r.failed.isNone && r.told != []) with
  | none => s
  | some r =>
    if (List.range l.ndev).all (fun d => r.told.any (fun e => e.1 == d) || s.unreached l d) then
      failHere s l.id 0x350 seq (lowCode (r.told.map (fun e => e.2)))
    else s
/-- This device ends its part of an exchange and tells the others so, once: nothing of it travels any more (R268). -/
def failAq (s : State) (l : Launch) (seq : BitVec 32) (code : Nat) : State :=
  if s.seqs.any (fun r => r.isFor l.id 0x350 seq && r.failed.isNone && r.told.any (fun e => e.1 == l.rank)) then agreeAq s l seq
  else
    let low := s.failCode l.id 0x350 seq code
    agreeAq ((noteFailing (purgeSeq s l.id 0x350 seq) l.id seq l.rank low).tell l.id seq (.failing low)) l seq
/-- Every rank of this device is through in an exchange that all have joined, or it has failed here: nothing of it can fail here
any more (R268). -/
def State.throughHere (s : State) (l : Launch) (seq : BitVec 32) : Bool :=
  s.seqs.any (fun r => r.isFor l.id 0x350 seq && ((r.live && r.full && r.joined.all (fun j => j.dev != l.rank || j.through.isSome)) ||
    (match r.failed with | some c => c != 0 | none => false)))
/-- A collective fails on every rank with the code of the failure (R255); an exchange with the lowest code that any device of the
launch has met (R268). -/
def failSeq (s : State) (launch : Word) (port : Nat) (seq : BitVec 32) (code : Nat) : State :=
  if port = 0x350 then
    match s.launchOf launch with
    | some l => if s.throughHere l seq then s else failAq s l seq code
    | none => s
  else (failHere s launch port seq code).tell launch seq (.ended port code false)
/-- A collective that no command of this device is left of is over here once every rank has joined it. -/
def seqOver (s : State) (launch : Word) (port : Nat) (seq : BitVec 32) : State :=
  if s.seqCmds launch port seq = [] then
    { s with seqs := s.seqs.map (fun r => if r.isFor launch port seq && r.live && r.full then r.ends 0 else r) }
  else s

/-! ## Joining -/

/-- Two descriptors that one collective may not have (R254). -/
def collDiffer (d e : BitVec 1024) : Bool :=
  fld d 0 3 != fld e 0 3 || fld d 4 2 != fld e 4 2 || fld d 8 5 != fld e 8 5 || fld d 32 10 != fld e 32 10 ||
  fld d 192 10 != fld e 192 10 || ((fld d 0 3 == 1 || fld d 0 3 == 2) && fld d 212 10 != fld e 212 10)
/-- Two maps that one exchange may not have (R262). -/
def aqDiffer (a b : BitVec 1024) : Bool :=
  fld a 0 11 != fld b 0 11 || fld a 16 18 != fld b 16 18 || fld a 320 192 != fld b 320 192 || fld a 86 10 != fld b 86 10
/-- Two ranks of one collective or exchange that cancel it: their commands differ, or they carry one rank (R254, R262). -/
def seqClash (port : Nat) (a b : Joined) : Bool :=
  (if port = 0x338 then collDiffer a.info b.info else aqDiffer a.info b.info) || a.ranks != b.ranks || a.rank == b.rank
/-- The rank-table entry of a rank does not name the context that issued its command (R254, R262). -/
def Joined.misnamed (j : Joined) : Bool :=
  let e := j.ranks.getD j.rank 0
  !(fld e 13 16 == j.dev && fld e 0 13 == j.ctx && fld e 29 3 == 0 && fld e 4 2 == 0)

/-- A rank joins: one that has failed, and that it is still missing from, ends it at once; in an exchange that is failing it waits
for the code; else it is compared with the ranks that have joined, and a clash cancels all (R254, R255, R262, R268). `cmd` is its
command, where it stands on this device. -/
def enterSeq (s : State) (launch : Word) (port : Nat) (seq : BitVec 32) (j : Joined) (cmd : Option (Nat × Nat)) : State :=
  match s.seqs.find? (fun r => r.isFor launch port seq && r.failed.any (· != 0) && !r.joined.any (fun q => q.rank == j.rank)) with
  | some r =>
    let code := r.failed.getD 0
    let s1 := { s with seqs := s.seqs.map (fun q => if q = r then ({ r with joined := r.joined ++ [j] } : SeqRec).ends code else q) }
    match cmd with
    | some e => finish s1 e.1 e.2 code 0
    | none => s1
  | none =>
    let active := s.seqs.find? (fun r => r.isFor launch port seq && r.failed.isNone)
    let clash := match active with | some r => r.live && (j.misnamed || r.joined.any (seqClash port j)) | none => j.misnamed
    if clash then cancelSeq s launch port seq
    else match active with
    | some r => { s with seqs := s.seqs.map (fun q => if q = r then { q with joined := q.joined ++ [j] } else q) }
    | none => { s with seqs := s.seqs.filter (fun r => !(r.isFor launch port seq && r.failed == some 0)) ++
        [⟨launch, port, seq, [j], none, []⟩] }

/-- A command of this device joins its collective or exchange, and the other devices are told; one whose sequence number is
closed ends with CANCELLED (R254, R262). -/
def joinSeq (s : State) (l : Launch) (k : Cmd) : State :=
  let seq := seqOf k.port k.info
  let j : Joined := ⟨rankOf k.port k.info, l.rank, (ctxPos k.c).toNat, k.info, k.ranks, none⟩
  let s1 := s.tell l.id seq (.joined k.port j.rank (ctxPos k.c) k.info k.ranks)
  if (if k.port = 0x338 then l.closedSeq else l.closedAq).contains seq then finish s1 (k.c / 4) k.id 7 0
  else enterSeq s1 l.id k.port seq j (some (k.c / 4, k.id))

end Sys2Proof.Machine
end

