-- ==== Sys2Proof/Machine/Map.lean ====
section
/-! DEFINITION. Packet headers (R246, R247, R263) and the arithmetic of layout maps (R259, R260): where each element of an
exchange comes from and goes to, and what of it is still to travel (R266). -/

namespace Sys2Proof.Machine

/-! ## Headers and entries -/

/-- Payload bytes that a header names. -/
def pktBytes (h : BitVec 512) : Nat := 64 * (let n := fld h 16 6; if n = 0 then 64 else n)
/-- Sequence number of a header. -/
def pktSeq (h : BitVec 512) : BitVec 32 := BitVec.ofNat 32 (fld h 32 32)
/-- Entry e of a header. -/
def pktEntry (h : BitVec 512) (e : Nat) : Word := BitVec.ofNat 64 (fld h (128 + 64 * e) 64)
/-- KIND, DEV, CORE and ARG of an entry. -/
def entKind (e : Word) : Nat := fld e 60 4
/-- See `entKind`. -/
def entDev (e : Word) : Nat := fld e 44 16
/-- See `entKind`. -/
def entCore (e : Word) : Nat := fld e 30 13
/-- See `entKind`. -/
def entArg (e : Word) : Nat := fld e 0 30

/-- Destination offset of a block's first element, its receiving context and device, its elements, and its sender's rank
(R263). -/
def blkOff (h : BitVec 512) : Nat := entArg (pktEntry h 0)
/-- See `blkOff`. -/
def blkCtx (h : BitVec 512) : Nat := ctxOfPos (entCore (pktEntry h 0))
/-- See `blkOff`. -/
def blkDev (h : BitVec 512) : Nat := entDev (pktEntry h 0)
/-- See `blkOff`. -/
def blkCount (h : BitVec 512) : Nat := fld h 112 16
/-- See `blkOff`. -/
def blkSender (h : BitVec 512) : Nat := fld h 64 10

/-- The packet carries a block's bytes, or tells that its source has failed. -/
def Note.moves : Note → Bool
  | .data | .failed _ => true
  | _ => false
/-- The packet is a block at its receiver that waits for other devices (R186). -/
def Note.isWait : Note → Bool
  | .waits _ _ => true
  | _ => false

/-! ## Layout maps -/

/-- A stride of a layout map, signed (R259). -/
def mapStride (m : BitVec 1024) (d : Nat) : Int :=
  if mapS m d < 2 ^ 31 then (mapS m d : Int) else (mapS m d : Int) - 2 ^ 32
/-- Q of R260. -/
def mapQ (m : BitVec 1024) : Nat := mapE m (mapSplit m) / mapN m
/-- Extent of destination position q. -/
def mapF (m : BitVec 1024) (q : Nat) : Nat :=
  if q = mapRpos m then mapN m
  else
    let d := mapP m (if q < mapRpos m then q else q - 1)
    if d = mapSplit m then mapQ m else mapE m d
/-- Place value of destination position q. -/
def mapPlace (m : BitVec 1024) (q : Nat) : Nat := (List.range q).foldl (fun a j => a * mapF m j) 1
/-- Coordinate at position q of a destination offset. -/
def mapCoord (m : BitVec 1024) (off q : Nat) : Nat := off / mapPlace m q % mapF m q
/-- Coordinate of source dimension d of the element at a destination offset of rank k. -/
def mapIx (m : BitVec 1024) (k off d : Nat) : Nat :=
  let slot := ((List.range (mapND m)).find? (fun p => mapP m p == d)).getD 0
  let c := mapCoord m off (if slot < mapRpos m then slot else slot + 1)
  if d = mapSplit m then k * mapQ m + c else c
/-- Source address of the element that lands at an offset of rank k, under the sender's map. -/
def mapSaddr (m : BitVec 1024) (k off : Nat) : Nat :=
  (((fld m 192 64 : Int) + mapW m * ((List.range (mapND m)).map (fun d => (mapIx m k off d : Int) * mapStride m d)).foldl (· + ·) 0)
    % 2 ^ 64).toNat

/-- The mark in a sender's `done` list of the element at an offset of rank k. -/
def sentKey (m : BitVec 1024) (k off : Nat) : Nat := mapTotal m * (1 + k) + off
/-- The elements that a rank sends: receiving rank and destination offset. -/
def mapSends (m : BitVec 1024) : List (Nat × Nat) :=
  let l := (List.range (mapTotal m)).filter (fun off => mapCoord m off (mapRpos m) == mapRank m)
  (List.range (mapN m)).flatMap (fun r => l.map (fun off => (r, off)))
/-- Elements that a command has sent, and that it has received. -/
def Cmd.sent (k : Cmd) : Nat := (k.done.filter (fun i => decide (mapTotal k.info ≤ i))).length
/-- See `Cmd.sent`. -/
def Cmd.received (k : Cmd) : Nat := (k.done.filter (fun i => decide (i < mapTotal k.info))).length
/-- Every element that the command sends has performed, and every element of its destination has been received (R266). -/
def Cmd.aqDone (k : Cmd) : Bool := k.sent == mapTotal k.info && k.away == [] && k.received == mapTotal k.info

/-- The rank of an exchange under way, once it has joined. -/
def State.aqRank (s : State) (launch : Word) (seq : BitVec 32) (rank : Nat) : Option Joined :=
  (s.seqs.find? (fun r => r.isFor launch 0x350 seq && r.failed.isNone)).bind (fun r => r.joined.find? (fun j => j.rank == rank))
/-- DBASE of a rank of this device that has joined an exchange. -/
def State.aqBase (s : State) (launch : Word) (seq : BitVec 32) (rank : Nat) : Option Nat :=
  match s.launchOf launch, s.aqRank launch seq rank with
  | some l, some j => if j.dev = l.rank then some (fld j.info 256 64) else none
  | _, _ => none
/-- Ranges of memory that an exchange has still to touch for its store queue: source elements not yet read, and destination
elements of this device, at ranks that have joined, not yet performed (R189, R266, log 57). -/
def State.aqRanges (s : State) (k : Cmd) : List (Nat × Nat) :=
  let m := k.info
  (mapSends m).flatMap (fun e =>
    let key := sentKey m e.1 e.2
    let sent := k.done.contains key
    (if sent then [] else [(mapSaddr m e.1 e.2, mapW m)]) ++
    (if sent && !k.away.contains key then [] else match s.aqBase k.task.launch (mapSeq m) e.1 with
      | some b => [(b + mapW m * e.2, mapW m)]
      | none => []))
/-- Elements that an exchange has still to perform: rank and offset. -/
def Cmd.aqLeft (k : Cmd) : List (Nat × Nat) :=
  (mapSends k.info).filter (fun e =>
    let key := sentKey k.info e.1 e.2
    !(k.done.contains key && !k.away.contains key))
/-- Elements that an exchange has still to perform at a rank: the rank, for each. -/
def Cmd.aqOwes (k : Cmd) : List Nat := k.aqLeft.map (fun e => e.1)
/-- Device rank of a rank of the exchange. -/
def Cmd.devOf (k : Cmd) (r : Nat) : Nat := fld (k.ranks.getD r 0) 13 16
/-- An exchange has still to store elements on a device. -/
def Cmd.sendsTo (k : Cmd) (dev : Nat) : Bool := k.aqOwes.any (fun r => k.devOf r == dev)
/-- An exchange has still to store elements at a rank of its own device that has not joined, so that their addresses are not
known (R266). -/
def State.aqOpen (s : State) (k : Cmd) : Bool :=
  k.aqOwes.any (fun r => k.devOf r == k.devOf (mapRank k.info) && (s.aqBase k.task.launch (mapSeq k.info) r).isNone)
/-- The pending exchange command of a launch and SEQ that satisfies a test, with its core. -/
def State.aqCmd (s : State) (launch : Word) (seq : BitVec 32) (p : Cmd → Bool) : Option (Nat × Cmd) :=
  ((s.seqCmds launch 0x350 seq).filterMap (fun e => (s.findCmd e.1 e.2).map (fun k => (e.1, k)))).find? (fun e => p e.2)
/-- The command that receives a block on this device, once it is accepted, with its core (R264). -/
def State.blkInto (s : State) (p : Packet) : Option (Nat × Cmd) :=
  s.aqCmd p.launch (pktSeq p.hdr) (fun k => k.c == blkCtx p.hdr)
/-- Destination of a block under its receiver's map: address and bytes (R260). -/
def blkRange (m : BitVec 1024) (p : Packet) : Nat × Nat :=
  ((fld m 256 64 + mapW m * blkOff p.hdr) % 2 ^ 64, mapW m * blkCount p.hdr)

end Sys2Proof.Machine
end

