-- ==== Sys2Proof/Machine/Syn.lean ====
section
/-! DEFINITION. The synchronisation unit's triggers at issue: Wharf operations (R194 to R211), messages and the
phase-relative clock (R213, R214, R219 to R223), and collectives (R251, R252). What the Wharf, the links and the
lock-keepers do with them is in Wharf.lean, Links.lean and Collective.lean. -/

namespace Sys2Proof.Machine

/-! ## Wharf operations -/

/-- Die of an address word (R195). -/
def wDie (a : Word) : Nat := fld a 26 2
/-- Offset of an address word. -/
def wOff (a : Word) : Nat := fld a 0 26
/-- ORD field of an address word. -/
def wOrd (a : Word) : Nat := fld a 34 2
/-- SCOPE field of an address word. -/
def wScope (a : Word) : Nat := fld a 36 4
/-- Check 1 of R197 on an address word. -/
def wBad (a : Word) : Bool :=
  fld a 40 24 != 0 || fld a 28 6 != 0 || decide (10 < wScope a) || (wScope a == 5 && wOrd a != 0)

/-- The checks of R197: a must-be-zero field of syn.b is passed in; `align` is 8, or 32 for a barrier. -/
def wharfOwn (s : State) (bBad : Bool) (align : Nat) : List (Option Stop) :=
  let a := s.cx.aS 12
  [chk (wBad a || bBad) (s.own 1), chk (s.wharfOut s.cx.launchId (wDie a) (wOff a) 8) (s.own 9),
   chk (wOff a % align != 0) (s.own 0x0C)]

/-- A Wharf operation leaves the context (R191, R199): it stands at its Wharf's log, in issue order; the reply or
acknowledgement is due at +32 unless the operation has a completion word (R198, R207). -/
def sendWharf (t : State) (port : Nat) (e : Word) (info : BitVec 256) (cmd : Option Nat) : State :=
  let x := t.cx
  let a := x.aS 12
  let fid := t.nextId
  let t1 := match cmd with
    | none => t.fly 32 (.wharf port a .absent false)
    | some _ => t
  let op : WOp :=
    { id := t1.nextId, c := t.iss.c, fid := fid, port := port, addr := a, b := x.bS 12, e := e, age := x.age,
      cmd := cmd, info := info, task := x.task.getD ⟨0, 0⟩, spid := x.spid }
  let w := t1.wharf (wDie a)
  let t2 := (t1.setWharf (wDie a) { w with inq := w.inq ++ [op] }).updCtx t.iss.c (fun y => { y with age := y.age + 1 })
  { t2 with nextId := t2.nextId + 1 }

/-- A Wharf operation with a reply or an acknowledgement. -/
def wharfTrig (port : Nat) (bBad : Bool) (align : Nat) (g : BitVec 4) (src : BitVec 10) (s : State) :
    Host.Outcome State Fault Refusal :=
  trigger s g src [] (wharfOwn s bBad align) (fun t => sendWharf t port 0 0 none)

/-- syn.ld (R200). -/
def execSynLd (g : BitVec 4) (src : BitVec 10) (s : State) : Host.Outcome State Fault Refusal := wharfTrig 0x310 false 8 g src s
/-- syn.st (R200). -/
def execSynSt (g : BitVec 4) (src : BitVec 10) (s : State) : Host.Outcome State Fault Refusal := wharfTrig 0x311 false 8 g src s
/-- syn.add (R200). -/
def execSynAdd (g : BitVec 4) (src : BitVec 10) (s : State) : Host.Outcome State Fault Refusal := wharfTrig 0x312 false 8 g src s
/-- syn.min (R200). -/
def execSynMin (g : BitVec 4) (src : BitVec 10) (s : State) : Host.Outcome State Fault Refusal := wharfTrig 0x314 false 8 g src s
/-- syn.max (R200). -/
def execSynMax (g : BitVec 4) (src : BitVec 10) (s : State) : Host.Outcome State Fault Refusal := wharfTrig 0x315 false 8 g src s
/-- syn.minu (R200). -/
def execSynMinu (g : BitVec 4) (src : BitVec 10) (s : State) : Host.Outcome State Fault Refusal := wharfTrig 0x316 false 8 g src s
/-- syn.maxu (R200). -/
def execSynMaxu (g : BitVec 4) (src : BitVec 10) (s : State) : Host.Outcome State Fault Refusal := wharfTrig 0x317 false 8 g src s
/-- syn.and (R200). -/
def execSynAnd (g : BitVec 4) (src : BitVec 10) (s : State) : Host.Outcome State Fault Refusal := wharfTrig 0x318 false 8 g src s
/-- syn.or (R200). -/
def execSynOr (g : BitVec 4) (src : BitVec 10) (s : State) : Host.Outcome State Fault Refusal := wharfTrig 0x319 false 8 g src s
/-- syn.xor (R200). -/
def execSynXor (g : BitVec 4) (src : BitVec 10) (s : State) : Host.Outcome State Fault Refusal := wharfTrig 0x31A false 8 g src s
/-- syn.swap (R200). -/
def execSynSwap (g : BitVec 4) (src : BitVec 10) (s : State) : Host.Outcome State Fault Refusal := wharfTrig 0x31B false 8 g src s
/-- syn.creset (R210). -/
def execSynCreset (g : BitVec 4) (src : BitVec 10) (s : State) : Host.Outcome State Fault Refusal := wharfTrig 0x32B false 8 g src s
/-- syn.creset.f (R210). -/
def execSynCresetF (g : BitVec 4) (src : BitVec 10) (s : State) : Host.Outcome State Fault Refusal := wharfTrig 0x32C false 8 g src s
/-- syn.cwait (R209). -/
def execSynCwait (g : BitVec 4) (src : BitVec 10) (s : State) : Host.Outcome State Fault Refusal := wharfTrig 0x328 false 8 g src s

/-- syn.arrive (R204). -/
def execSynArrive (g : BitVec 4) (src : BitVec 10) (s : State) : Host.Outcome State Fault Refusal :=
  wharfTrig 0x31C (fld (s.cx.bS 12) 48 16 != 0) 32 g src s
/-- syn.expect (R204). -/
def execSynExpect (g : BitVec 4) (src : BitVec 10) (s : State) : Host.Outcome State Fault Refusal :=
  wharfTrig 0x31D (fld (s.cx.bS 12) 48 16 != 0) 32 g src s
/-- syn.wait (R205). -/
def execSynWait (g : BitVec 4) (src : BitVec 10) (s : State) : Host.Outcome State Fault Refusal :=
  wharfTrig 0x31E (fld (s.cx.bS 12) 9 55 != 0) 32 g src s
/-- syn.twait (R205). -/
def execSynTwait (g : BitVec 4) (src : BitVec 10) (s : State) : Host.Outcome State Fault Refusal :=
  wharfTrig 0x31F (fld (s.cx.bS 12) 9 23 != 0) 32 g src s

/-- syn.fadd: it freezes while the Wharf's reorder buffer is full (R201). -/
def execSynFadd (g : BitVec 4) (src : BitVec 10) (s : State) : Host.Outcome State Fault Refusal :=
  trigger s g src []
    (wharfOwn s (fld (s.cx.bS 12) 48 16 != 0) 8 ++
      [chk (decide (1024 ≤ (s.wharf (wDie (s.cx.aS 12))).reorder.length)) ⟨8, 0, s.iss.pos, .noRoom⟩])
    (fun t => sendWharf t 0x313 0 0 none)

/-- syn.cas.kN: the expected value is x(56 + N), read at issue (R196, R200). -/
def execSynCas (g : BitVec 4) (src : BitVec 10) (k : BitVec 3) (s : State) : Host.Outcome State Fault Refusal :=
  trigger s g src [] (wharfOwn s false 8) (fun t => sendWharf t (0x320 + k.toNat) (t.cx.xreg (56 + k.toNat)) 0 none)

/-- syn.cinc: the increment has a completion word, held like a command's (R142, R207). -/
def execSynCinc (g : BitVec 4) (src : BitVec 10) (s : State) : Host.Outcome State Fault Refusal :=
  let b := s.cx.bS 12
  trigger s g src [] (wharfOwn s false 8 ++ [chk (!s.cx.inWindow (cwOff b) 8) (s.own 9), admission s (cwOff b)])
    (fun t =>
      let k := { t.newCmd 0x329 (t.cx.aS 12) b with cw := cwOff b }
      (sendWharf (t.accept k) 0x329 0 0 (some k.id)).landS 1 0x098 (BitVec.ofNat 64 (cwOff b)))

/-- A reserved OP code of R211. -/
def opBad (op : Nat) : Bool := op == 1 || decide (10 < op)
/-- Check 3 of R208 on an arm record. -/
def armBad (r : BitVec 256) : Bool :=
  fld r 38 26 != 0 || fld r 4 4 != 0 || decide (3 < fld r 0 4) ||
  (if fld r 0 4 = 0 then opBad (fld r 8 4) || fld r 8 4 == 10 else fld r 8 4 != 0) ||
  (fld r 0 4 != 3 && wBad (BitVec.ofNat 64 (fld r 128 64)))

/-- syn.arm (R208): the counter's checks, the record's place, the freeze, then the record's contents. -/
def execSynArm (g : BitVec 4) (src : BitVec 10) (s : State) : Host.Outcome State Fault Refusal :=
  let a := s.cx.aS 12
  let b := s.cx.bS 12
  let off := fld b 0 21
  let r : BitVec 256 := BitVec.ofNat 256 (Mem.readLE s.iss.tile0 off 32)
  let tgt : Word := BitVec.ofNat 64 (fld r 128 64)
  let wh := fld r 0 4 != 3
  trigger s g src []
    (wharfOwn s (fld b 21 43 != 0) 8 ++
     [chk (!s.cx.inWindow off 32) (s.own 9), chk (off % 32 != 0) (s.own 0x0C),
      chk (s.ck.held s.iss.gid off 32) (s.freezeAt 8), chk (armBad r) (s.late 1),
      chk ((wh && s.wharfOut s.cx.launchId (wDie tgt) (wOff tgt) 8) ||
        s.wharfOut s.cx.launchId (wDie a) (fld r 12 26) 8) (s.late 9),
      chk ((wh && wOff tgt % 8 != 0) || fld r 12 26 % 8 != 0) (s.late 0x0C)])
    (fun t => sendWharf t 0x32A 0 r none)

/-! ## Batched atomics (R211) -/

/-- Bytes of one record of a batch. -/
def batchRec (op : Nat) : Nat := if op = 10 then 32 else 16

/-- syn.batch (R211). -/
def execSynBatch (g : BitVec 4) (src : BitVec 10) (s : State) : Host.Outcome State Fault Refusal :=
  let a := s.cx.aS 12
  let b := s.cx.bS 12
  let n := fld a 24 12
  let len := n * batchRec (fld a 20 4)
  trigger s g src []
    [chk (fld a 6 14 != 0 || n == 0 || opBad (fld a 20 4)) (s.own 1),
     chk (s.cx.tileOut (fld a 0 6) (64 * fld a 36 10) len || !s.cx.inWindow (cwOff a) 8) (s.own 9),
     chk (b.toNat % 64 != 0) (s.own 0x0C), admission s (cwOff a)]
    (fun t =>
      let k := { t.newCmd 0x32D a b with
        ranges := [(t.cx.tileAt (fld a 0 6) (64 * fld a 36 10), len)], cw := cwOff a, nsec := n }
      ((t.setCx (t.cx.enqStore .cmd k.id false 0)).accept k).landS 1 0x098 (BitVec.ofNat 64 (cwOff a)))

/-! ## Messages (R219 to R223) and the phase-relative clock (R214) -/

/-- A route or source word breaks check 1 of R221 and R223. -/
def routeBad (a : Word) : Bool :=
  fld a 56 8 != 0 || fld a 48 3 != 0 || fld a 13 19 != 0 || !posOK (fld a 0 13) ||
  (bit a 55 && (decide (10 < fld a 51 4) || fld a 51 4 == 5))

/-- Slots of a port's skid buffer that are taken: one of each message, and those of engine traffic (R227). -/
def State.skid (s : State) (port : Nat) : Nat :=
  ((s.outbound.filter (fun o => o.port == some port)).map (fun o => o.slots)).foldl (· + ·) (s.flits.filter (fun f => f.port == port)).length
/-- The core's share on the path is full, or the port's skid buffer is (R227). Flits of every launch on the core count against the MSLOTS of
the launch that sends: DESIGN CHOICE, since R227 does not say whether a share is a launch's (log 63). -/
def State.noSlot (s : State) (l : Launch) (core port : Nat) : Bool :=
  decide (l.mslots ≤ (s.flits.filter (fun f => f.port == port && f.core == core)).length) ||
  (decide (port < 24) && decide (4096 ≤ s.skid port))
/-- A syn.send of the context to a rank finds a slot (R227). -/
def State.sendFree (s : State) (c dev : Nat) : Bool :=
  match s.launchOf (s.ctx c).launchId with
  | some l => !s.noSlot l (c / 4) (s.path l (dieOf c) dev)
  | none => true

/-- A slot has been freed: the freeze of a syn.send that finds one now is over, and a later one is another (R217, R227). -/
def State.slotFreed (s : State) : State :=
  { s with ctxs := s.ctxs.map (fun e => match e.2.frozenSend with
    | some (_, dev) => if e.2.frozenAt.isSome && s.sendFree e.1 dev then (e.1, { e.2 with frozenAt := none }) else e
    | none => e) }

/-- A grant template lets a sender reach the core for a message (R221). -/
def grantMsg (g : Grant) (launch : Word) (target sdev score : Nat) : Bool :=
  g.launch == launch && fld g.info 0 11 == target && (fld g.info 32 16 == sdev || fld g.info 32 16 == 0xFFFF) &&
  (bit g.info 31 || fld g.info 16 11 == score) && bit g.info 48

/-- syn.send (R221). Where no port of the route is left, its message is discarded as those that stand on the last port are, and
the launch is aborted (R228). The event then carries ADDR 0 and the master of port 0 of the sender's die: DESIGN CHOICE, since R228
names no port there (log 63). -/
def execSynSend (g : BitVec 4) (src : BitVec 10) (s : State) : Host.Outcome State Fault Refusal :=
  let a := s.cx.aS 12
  let c := s.iss.c
  let dev := fld a 32 16
  let own := fld (ctxPos c) 0 11
  let l := s.launchOf s.cx.launchId
  let ndev := match l with | some l => l.ndev | none => 0
  let rank := match l with | some l => l.rank | none => 0
  let port := match l with | some l => s.path l (dieOf c) dev | none => 99
  let granted := (s.core (ctxOfPos (fld a 0 13) / 4)).grants.any (fun t => grantMsg t s.cx.launchId (fld a 0 11) rank own)
  let full := match l with | some l => port != 99 && s.noSlot l (c / 4) port | none => false
  trigger s g src []
    [chk (routeBad a) (s.own 1), chk (decide (ndev ≤ dev)) (s.own 9),
     chk (dev != rank && !granted) (s.trapAt 7 0 0x0A a 0), chk full ⟨8, 0, s.iss.pos, .noSlot⟩]
    (fun t =>
      let x := t.cx
      if port = 99 then
        (t.updLaunch x.launchId Launch.abort).event 0x09 2 0 x.launchId (400 + 6 * dieOf c)
      else
      let m : Msg :=
        { payload := x.bS 12, stamp := x.pclk, sdev := BitVec.ofNat 16 rank, src := ctxPos c,
          ddev := BitVec.ofNat 16 dev, dst := BitVec.ofNat 13 (fld a 0 13), rel := bit a 55,
          scope := BitVec.ofNat 4 (fld a 51 4), launch := x.launchId }
      { (t.setCx { x with age := x.age + 1, frozenSend := none }) with
        flits := t.flits ++ [⟨t.nextId, port, c / 4, m, !bit a 55, x.age, c, x.task.getD ⟨0, 0⟩, false, []⟩], nextId := t.nextId + 1 })

/-- A source word without its ACQ and SCOPE: what names a source (R223). -/
def srcKey (a : Word) : Nat := fld a 32 16 * 8192 + fld a 0 13
/-- Claims that the context holds. -/
def Ctx.claims (x : Ctx) : Nat := (x.snap.filter (fun f => match f.item with | .claim _ _ _ => true | _ => false)).length

/-- syn.recv (R223). -/
def execSynRecv (g : BitVec 4) (src : BitVec 10) (s : State) : Host.Outcome State Fault Refusal :=
  let a := s.cx.aS 12
  let b := s.cx.bS 12
  let ndev := match s.launchOf s.cx.launchId with | some l => l.ndev | none => 0
  trigger s g src []
    [chk (routeBad a || fld b 50 14 != 0 || fld b 44 6 == 0 || fld b 32 12 == 0) (s.own 1),
     chk (decide (ndev ≤ fld a 32 16)) (s.own 9), chk (decide (64 ≤ s.cx.claims)) (s.own 4)]
    (fun t =>
      let k := NMap.get 0 t.cx.recvd (srcKey a) + 1
      (t.setCx { t.cx with recvd := NMap.put t.cx.recvd (srcKey a) k }).fly (fld b 32 12) (.claim a k b))

/-- syn.pset: the next group reads pclk = v (R214). -/
def execSynPset (g : BitVec 4) (src : BitVec 10) (s : State) : Host.Outcome State Fault Refusal :=
  trigger s g src [] [] (fun t =>
    t.setCx { t.cx with pb := t.cx.lclk + 1 - BitVec.ofNat 64 (fld (t.cx.bS 12) 0 32) })

/-! ## Collectives (R251 to R254) -/

/-- Check 3 of R252. -/
def descBad (d : BitVec 256) : Bool :=
  fld d 42 86 != 0 || fld d 13 19 != 0 || fld d 6 2 != 0 || fld d 3 1 != 0 || decide (4 < fld d 0 3) || fld d 4 2 == 3 ||
  decide (fld d 192 10 < fld d 202 10) ||
  ((fld d 0 3 == 1 || fld d 0 3 == 2) && decide (fld d 192 10 < fld d 212 10))
/-- Check 5 of R252. -/
def collFmtBad (d : BitVec 256) : Bool :=
  let f := fld d 8 5
  let k := fld d 0 3
  decide (16 ≤ f) || ((k == 0 || k == 1 || k == 4) && !(f == 1 || f == 2 || f == 3 || f == 7))

/-- A command record enters the ring with a copy of its rank table, which stands at the record's place in LKRT: DESIGN CHOICE,
since R244 does not say where (log 59). -/
def Hart.post (h : Hart) (r : BitVec 512) (ranks : List (BitVec 32)) : Hart :=
  let at0 := 4096 * (h.head.toNat % 256)
  { h with
    ring := (h.ring ++ [BitVec.ofNat 512 (r.toNat + (0x200000 + at0) * 2 ^ 320)]).drop ((h.ring.length + 1) - 256)
    head := h.head + 1
    rt := Mem.write h.rt at0 (ranks.flatMap (fun (e : BitVec 32) => leBytes 4 e.toNat)) }

/-- The home lock-keeper takes the command record of a collective, which waits in the packet engine while the ring has no
room (R242, R244). -/
def postRecord (s : State) (k : Cmd) (hart rank : Nat) : State :=
  let lk := homeOf (k.c / 4)
  let kp := s.keeper lk
  let h := NMap.get Hart.init kp.harts hart
  let r : BitVec 512 := BitVec.ofNat 512 (k.info.toNat % 2 ^ 256 + ((ctxPos k.c).toNat + rank * 2 ^ 32) * 2 ^ 256 +
    k.id % 2 ^ 32 * 2 ^ 384)
  let h1 := if (h.head - h.tail).toNat < 256 ∧ h.waiting = [] then h.post r k.ranks else { h with waiting := h.waiting ++ [(r, k.ranks)] }
  s.setKeeper lk { kp with harts := NMap.put kp.harts hart h1 }

/-- The rank table of an accepted collective may be read: it is its bytes' turn, and no older collective of its context still
waits for that (R143, R244, R252). -/
def State.tableReady (s : State) (k : Cmd) : Bool :=
  let rt := k.ranges.getD 1 (0, 0)
  s.tileFree (k.c / 4) k rt.1 rt.2 &&
  !((s.core (k.c / 4)).cmds.any (fun m => m.port == 0x338 && m.c == k.c && decide (m.id < k.id) && m.prog == 0))

/-- A collective whose rank table may be read joins: the home lock-keeper writes its record, unless its access table refuses
the core (R346); a launch without firmware, or with a closed sequence number, ends it with CANCELLED; a stopped hart is a plan
fault (R243, R244, R252, R254). -/
def joinNow (s : State) (core : Nat) (k0 : Cmd) : State :=
  if k0.port != 0x338 || k0.prog != 0 || !s.tableReady k0 then s
  else
    let rt := k0.ranges.getD 1 (0, 0)
    let k := { k0 with prog := 1, ranks := rankTable (s.core core).tile rt.1 (rt.2 / 4) }
    let s1 := s.updCmd core k.id (fun _ => k)
    match s.launchOf k.task.launch with
    | none => s1
    | some l =>
      let lk := homeOf core
      if !s.admits (396 + lk) core k.spid true then finish s1 core k.id 3 0
      else match l.hart with
      | none => finish s1 core k.id 7 0
      | some h =>
        let s2 := joinSeq (postRecord s1 k h l.rank) l k
        if (NMap.get Hart.init (s.keeper lk).harts h).stopped && !l.closedSeq.contains (descSeq k.info) then
          planFault s2 l.id (descSeq k.info) lk
        else s2
/-- The pending collective of a core under a command's number joins. -/
def joinColl (s : State) (core id : Nat) : State :=
  match (s.core core).cmds.find? (fun k => k.id == id) with
  | none => s
  | some k0 => joinNow s core k0

/-- syn.coll (R251, R252). -/
def execSynColl (g : BitVec 4) (src : BitVec 10) (s : State) : Host.Outcome State Fault Refusal :=
  let off := (s.cx.aS 12).toNat
  let d : BitVec 256 := BitVec.ofNat 256 (Mem.readLE s.iss.tile0 off 32)
  let e : BitVec 1024 := d.setWidth 1024
  let cw := 8 * fld d 238 18
  let n := fld d 192 10 + 1
  let rt := s.cx.tileAt (fld d 222 6) (64 * fld d 228 10)
  let out (t o len : Nat) := len != 0 && s.cx.tileOut t (64 * o) len
  trigger s g src []
    [chk (!s.cx.inWindow off 32) (s.own 9), chk (off % 32 != 0) (s.own 0x0C),
     chk (s.ck.held s.iss.gid off 32) (s.freezeAt 8), chk (descBad d) (s.late 1),
     chk (out (fld d 160 6) (fld d 166 10) (descSrc e) || out (fld d 176 6) (fld d 182 10) (descDst e) ||
       out (fld d 222 6) (fld d 228 10) (4 * n) || !s.cx.inWindow cw 8) (s.late 9),
     chk (collFmtBad d) (s.late 3), admission s cw]
    (fun t =>
      let x := t.cx
      let k := { t.newCmd 0x338 (BitVec.ofNat 64 off) 0 with
        info := e, cw := cw
        ranges := [(off, 32), (rt, 4 * n), (x.tileAt (fld d 160 6) (64 * fld d 166 10), descSrc e),
          (x.tileAt (fld d 176 6) (64 * fld d 182 10), descDst e)].filter (fun r => r.2 != 0) }
      joinNow ((t.accept k).landS 1 0x098 (BitVec.ofNat 64 cw)) (t.iss.c / 4) k)

end Sys2Proof.Machine
end

