-- ==== Sys2Proof/Machine/Wharf.lean ====
section
/-! DEFINITION. The Wharf (R194 to R210): operations performing in their variable's order, sequenced additions,
barriers, waits, counters, and triggered operations. -/

namespace Sys2Proof.Machine

/-! ## Variables -/

/-- A variable of a Wharf, by its byte offset; one that nothing has written is zero (R367 step 7). -/
def State.var (s : State) (die off : Nat) : Word := NMap.get 0 (s.wharf die).vars off
/-- The state with a variable written. -/
def State.putVar (s : State) (die off : Nat) (w : Word) : State :=
  let k := s.wharf die
  s.setWharf die { k with vars := if w = 0 then NMap.del k.vars off else NMap.put k.vars off w }
/-- A word with bits `lo + len − 1 : lo` replaced. -/
def putFld (w : Word) (lo len v : Nat) : Word := BitVec.ofNat 64 (w.toNat - fld w lo len * 2 ^ lo + v % 2 ^ len * 2 ^ lo)
/-- The variable has armed operations. -/
def State.armedAt (s : State) (die off : Nat) : Bool := (s.wharf die).armed.any (fun a => a.key == off)

/-- A 64-bit read-modify-write by an OP code of R211 (R200): old value, operand, compared value. -/
def atomic (op : Nat) (old b e : Word) : Word :=
  if op = 0 then old + b
  else if op = 2 then (if b.slt old then b else old)
  else if op = 3 then (if old.slt b then b else old)
  else if op = 4 then (if b.toNat < old.toNat then b else old)
  else if op = 5 then (if old.toNat < b.toNat then b else old)
  else if op = 6 then old &&& b
  else if op = 7 then old ||| b
  else if op = 8 then old ^^^ b
  else if op = 10 then (if old = e then b else old)
  else b

/-- The OP code of a trigger port of R196; a plain store swaps and drops the old value. -/
def portOp (port : Nat) : Nat :=
  if port = 0x312 then 0 else if port = 0x311 ∨ port = 0x31B then 9 else if 0x320 ≤ port ∧ port ≤ 0x327 then 10
  else port - 0x312

/-! ## Answers -/

/-- The answer of an operation starts on its way back (R198, R199); a fired operation has no one to answer. -/
def answer (s : State) (die : Nat) (op : WOp) (a : Answer) : State :=
  if op.port = 0 then s else
  let k := s.wharf die
  s.setWharf die { k with replies := k.replies ++ [(op.c, op.fid, a)] }

/-- A fired operation has performed, or ended with a code: its report word is to be written (R209). -/
def report (s : State) (die : Nat) (info : BitVec 256) (spid code : Nat) : State :=
  let k := s.wharf die
  s.setWharf die { k with reports := k.reports ++ [(fld info 12 26, code, spid)] }

/-- Registered counter waits are answered where the variable has reached their threshold (R209, R210). -/
def wakeCounters (s : State) (die off : Nat) : State :=
  let k := s.wharf die
  let v := s.var die off
  let ready (w : Waiter) := w.op.port == 0x328 && w.key == off && decide (w.op.b.toNat ≤ v.toNat)
  let s1 := s.setWharf die { k with waiters := k.waiters.filter (fun w => !ready w) }
  (k.waiters.filter ready).foldl (fun s w => answer s die w.op (.ok v)) s1
/-- A variable takes a value, and the counter waits that it satisfies are answered (R209). -/
def State.setVar (s : State) (die off : Nat) (w : Word) : State := wakeCounters (s.putVar die off w) die off

/-! ## Barriers (R203 to R205) -/

/-- Phase index of a barrier record: PARITY × 256 + PHASE. -/
def State.phaseIx (s : State) (die base : Nat) : Nat := fld (s.var die base) 0 9
/-- Current arrivals, next arrivals and expected arrivals of a record. -/
def State.curArr (s : State) (die base : Nat) : Nat := fld (s.var die base) 16 16
/-- See `State.curArr`. -/
def State.nextArr (s : State) (die base : Nat) : Nat := fld (s.var die base) 32 16
/-- See `State.curArr`. -/
def State.expectArr (s : State) (die base : Nat) : Nat := fld (s.var die base) 48 16

/-- An arrival is counted where the record has room: the token it takes, else none (R204). -/
def countArrival (s : State) (die base : Nat) : Option (Nat × State) :=
  let w := s.var die base
  let ix := s.phaseIx die base
  if s.expectArr die base = 0 then some (ix, s)
  else if s.curArr die base < s.expectArr die base then
    some (ix, s.setVar die base (putFld w 16 16 (s.curArr die base + 1)))
  else if s.nextArr die base < s.expectArr die base then
    some ((ix + 1) % 512, s.setVar die base (putFld w 32 16 (s.nextArr die base + 1)))
  else none

/-- A counted arrival is answered with its token, or reports where an armed operation made it (R204, R209). -/
def tellArrival (s : State) (die : Nat) (op : WOp) (token : Nat) : State :=
  if op.port = 0 then report s (wDie op.addr) op.info op.spid 0 else answer s die op (.ok (BitVec.ofNat 64 token))

/-- Held arrivals of a record are counted, oldest first, while they fit (R204). -/
def countHeld (s : State) (die base : Nat) : List (Nat × WOp) → State
  | [] => s
  | e :: t =>
    if e.1 = base then
      match countArrival s die base with
      | some (token, s1) =>
        let k := s1.wharf die
        countHeld (tellArrival (s1.setWharf die { k with heldArr := k.heldArr.erase e }) die e.2 token) die base t
      | none => s
    else countHeld s die base t

/-- Status and index of a wait's answer (R205). -/
def waitWord (status ix : Nat) : Word := BitVec.ofNat 64 (status + 256 * ix)

/-- The limit of a timed wait has passed in an earlier cycle: a phase that completes in the cycle of the expiry still answers
COMPLETE (R205). -/
def Waiter.late (w : Waiter) (wall : Nat) : Bool := match w.expire with | some e => decide (e < wall) | none => false
/-- Waiters on the completed phase are answered with COMPLETE; one whose limit has passed before, with TIMEOUT (R204, R205). -/
def wakePhase (s : State) (die base phase ix : Nat) : State :=
  let k := s.wharf die
  let done (w : Waiter) := (w.op.port == 0x31E || w.op.port == 0x31F) && w.key == base && fld w.op.b 0 9 == phase
  let s1 := s.setWharf die { k with waiters := k.waiters.filter (fun w => !done w) }
  (k.waiters.filter done).foldl (fun s w =>
    answer s die w.op (.ok (if w.late s.wall then waitWord 3 phase else waitWord 1 ix))) s1

/-- The completion loop of R204. -/
def barrierLoop (s : State) (die base : Nat) : Nat → State
  | 0 => s
  | n + 1 =>
    let w := s.var die base
    let gate0 := bit w 9
    let closes := !gate0 && decide (1 ≤ s.expectArr die base) && s.curArr die base == s.expectArr die base
    let s1 := if closes then
        (s.setVar die base (putFld w 9 1 1)).setVar die (base + 24)
          (putFld (s.var die (base + 24)) 0 48 (fld (s.var die (base + 8)) 0 48))
      else s
    let w1 := s1.var die base
    let landed := fld (s1.var die (base + 16)) 0 48
    let mark := fld (s1.var die (base + 24)) 0 48
    if bit w1 9 && decide ((landed + 2 ^ 48 - mark) % 2 ^ 48 < 2 ^ 47) then
      let ix := (s1.phaseIx die base + 1) % 512
      let w2 := putFld (putFld (putFld (putFld w1 0 9 ix) 16 16 (s1.nextArr die base)) 32 16 0) 9 1 0
      let s2 := wakePhase (s1.setVar die base w2) die base (s1.phaseIx die base) ix
      barrierLoop (countHeld s2 die base (s2.wharf die).heldArr) die base n
    else s1

/-- The loop runs on the record that holds a variable, where the record is used as a barrier (R204, log 12). -/
def settle (s : State) (die off : Nat) : State :=
  let base := off / 32 * 32
  let k := s.wharf die
  if k.barriers.contains base then barrierLoop s die base (k.heldArr.length + 4) else s

/-- The record is used as a barrier from now on; the loop runs on what the program has stored in it (R204, log 12). -/
def useBarrier (s : State) (die base : Nat) : State :=
  let k := s.wharf die
  if k.barriers.contains base then s else settle (s.setWharf die { k with barriers := k.barriers ++ [base] }) die base

/-- n bytes are added to a 48-bit count of a record: CLAIMED at word 1, LANDED at word 2. -/
def addCount (s : State) (die base word n : Nat) : State :=
  let w := s.var die (base + 8 * word)
  s.setVar die (base + 8 * word) (putFld w 0 48 (fld w 0 48 + n))

/-- The stack that holds an overflow variable, and whether it is in self-refresh (R199, R357). -/
def varStack (die off : Nat) : Nat := 2 * die + if Config.overflowHigh die off then 1 else 0
/-- See `varStack`. -/
def State.varAsleep (s : State) (die off : Nat) : Bool := decide (0x800000 ≤ off) && s.selfRef.getLsbD (varStack die off)

/-- Bytes land for a barrier record of a space: they are added, or wait for the record's stack (R204, R267, R357). -/
def addLanded (s : State) (die base n spid : Nat) : State :=
  if s.varAsleep die base then
    let k := s.wharf die
    (s.setWharf die { k with landing := k.landing ++ [(base, n, spid)] }).holdAt (varStack die base) (.landed die base)
  else settle (addCount (useBarrier s die base) die base 2 n) die base
/-- The landed bytes that wait for a record's stack are added; none may be left of a space that has been quiesced (R349). -/
def landHeld (s : State) (die base : Nat) : State :=
  let k := s.wharf die
  if !k.landing.any (fun e => e.1 == base) then s else
  let n := ((k.landing.filter (fun e => e.1 == base)).map (fun e => e.2.1)).foldl (· + ·) 0
  let s1 := s.setWharf die { k with landing := k.landing.filter (fun e => e.1 != base) }
  settle (addCount (useBarrier s1 die base) die base 2 n) die base

/-- A report word that stands first is written, as any change of a variable: it wakes counter waits and runs the completion
loop; or it waits for its stack (R204, R209, R357). -/
def tellReport (s : State) (die : Nat) (r : Nat × Nat × Nat) : State :=
  let k := s.wharf die
  if !k.reports.contains r then s
  else if s.varAsleep die r.1 then s.holdAt (varStack die r.1) (.report die r.1 r.2.1 r.2.2)
  else
    settle ((s.setWharf die { k with reports := k.reports.erase r }).setVar die r.1 (cwWord r.2.1 0)) die r.1

/-- An arrival claiming n bytes at a record (R204). -/
def arrive (s : State) (die base n : Nat) (op : WOp) : State :=
  let s1 := addCount (useBarrier s die base) die base 1 n
  let s2 := match countArrival s1 die base with
    | some (token, t) => tellArrival t die op token
    | none => let k := s1.wharf die; s1.setWharf die { k with heldArr := k.heldArr ++ [(base, op)] }
  settle s2 die base

/-- Some word of a barrier record has armed operations (R200). -/
def State.recArmed (s : State) (die base : Nat) : Bool :=
  (List.range 4).any (fun i => s.armedAt die (base + 8 * i))

/-! ## Counters and triggered operations (R207 to R209) -/

/-- Armed operations whose threshold the counter has reached, in firing order. -/
def dueArmed (l : List Armed) (off v : Nat) : List Armed :=
  (l.filter (fun a => a.key == off && decide (fld a.info 64 64 ≤ v))).mergeSort (fun a b => decide (fld a.info 64 64 ≤ fld b.info 64 64))

/-- A fired operation waits (R209, R357). -/
def State.keepFired (s : State) (die : Nat) (a : Armed) : State :=
  let k := s.wharf die
  s.setWharf die { k with stores := k.stores ++ [a] }

/-- A KIND 3 store for another device's memory leaves for it, or waits for its slots; where no port is left it ends with
LINK_FAILED (R186, R209, R227, R228). -/
def sendFired (s : State) (die : Nat) (a : Armed) (pa : Nat) : State :=
  match s.launchOf a.launch with
  | none => s
  | some l =>
    let dev := (s.peerRank a.spid pa).getD 0
    let p := s.path l die dev
    if p = 99 then
      report ((s.updLaunch l.id Launch.abort).event 0x09 2 0 l.id (400 + 6 * die)) die a.info a.spid 5
    else if s.cutOff die (p / 6) || decide (4096 < s.skid p + 2) then s.keepFired die a
    else
      let k := s.wharf die
      let note : Packet := ⟨0, leBytes 8 (fld a.info 192 64), l.id, 6 * die, l.rank, 0, .store (384 + die) a.id 0 (pa % 2 ^ 39)⟩
      { (s.setWharf die { k with sent := k.sent ++ [a] }) with
        outbound := s.outbound ++ [⟨s.nextId, dev, die, some p, 2, .pkt note, []⟩], nextId := s.nextId + 1 }

/-- A KIND 3 store of a fired operation (R209): performed, reported as failed, or waiting for its page or its stack. -/
def firedStore (s : State) (die : Nat) (a : Armed) : State :=
  let va := fld a.info 128 64
  match s.reach (a.c / 4) a.spid va Need.write with
  | .at pa =>
    if s.asleep pa then (s.keepFired die a).holdAt (stackOf pa) (.fired die a.id)
    else if inPeer pa then sendFired (s.fillTlb (a.c / 4) a.spid va) die a pa
    else report ((s.fillTlb (a.c / 4) a.spid va).putMem pa (leBytes 8 (fld a.info 192 64))) die a.info a.spid 0
  | .denied => report (s.fillTlb (a.c / 4) a.spid va) die a.info a.spid 3
  | .noMap => report s die a.info a.spid 4
  | .expand => s.keepFired die a
  | .unmapped => (s.keepFired die a).wantPage (a.c / 4) a.spid va

/-- One armed operation fires; the counter it incremented, if any, is returned. The Wharf of its target asks its access
table (R209, R346). An arrival acts on the record that holds its target (log 24). One whose way to its target crosses a failed
edge goes no further (R356). -/
def fireOne (s : State) (die : Nat) (a : Armed) : State × Option (Nat × Nat) :=
  let r := a.info
  let t : Word := BitVec.ofNat 64 (fld r 128 64)
  let b : Word := BitVec.ofNat 64 (fld r 192 64)
  let d := wDie t
  let off := wOff t
  let done (s : State) (code : Nat) : State := report s die r a.spid code
  if fld r 0 4 = 3 then (firedStore s die a, none)
  else if s.cutOff die d then (s.keepFired die a, none)
  else if !s.admits (392 + d) (a.c / 4) a.spid true then (done s 3, none)
  else if s.varAsleep d off then ((s.keepFired die a).holdAt (varStack d off) (.fired die a.id), none)
  else if fld r 0 4 = 0 then
    if s.armedAt d off then (done s 7, none)
    else (done (settle (s.setVar d off (atomic (fld r 8 4) (s.var d off) b 0)) d off) 0, none)
  else if fld r 0 4 = 1 then
    if 2 ^ 64 ≤ (s.var d off).toNat + b.toNat then (done s 7, none)
    else (done (settle (s.setVar d off (s.var d off + b)) d off) 0, some (d, off))
  else
    if s.recArmed d (off / 32 * 32) then (done s 7, none)
    else (arrive s d (off / 32 * 32) (fld b 0 48)
      { id := a.id, c := a.c, fid := 0, port := 0, addr := BitVec.ofNat 64 (die * 2 ^ 26), b := b, e := 0, age := 0, cmd := none,
        info := r, task := ⟨a.launch, 0⟩, spid := a.spid }, none)

/-- Every armed operation that counters have reached fires, and what those firings reach in turn; `n` bounds the number
of rounds by the number of armed operations (R209). -/
def fireAll (s : State) (work : List (Nat × Nat)) : Nat → State
  | 0 => s
  | n + 1 =>
    match work with
    | [] => s
    | (die, off) :: t =>
      let k := s.wharf die
      let due := dueArmed k.armed off (s.var die off).toNat
      let s1 := s.setWharf die { k with armed := k.armed.filter (fun a => !due.contains a) }
      let r := due.foldl (fun (p : State × List (Nat × Nat)) a =>
        let q := fireOne p.1 die a
        (q.1, p.2 ++ q.2.toList)) (s1, [])
      fireAll r.1 (t ++ r.2) n

/-- Rounds that a firing may take: one for each armed operation of the device, and one. -/
def State.fireFuel (s : State) : Nat := (s.wharfs.map (fun e => e.2.armed.length)).foldl (· + ·) 1

/-- A fired operation that waits tries again, with all that it fires in turn (R209, R357). -/
def fireAgain (s : State) (die : Nat) (a : Armed) : State :=
  let k := s.wharf die
  let q := fireOne (s.setWharf die { k with stores := k.stores.erase a }) die a
  fireAll q.1 q.2.toList q.1.fireFuel

/-- An increment of a counter (R207): none where it would wrap, else the counter raised and its operations fired. Where the counter
is a word of a barrier record the completion loop runs first, and thresholds are compared with what it leaves; and no other
change of an armed variable fires (bytes landed, the loop, a report word): DESIGN CHOICE, since R204, R207 and R209 give neither
(log 63). -/
def increment (s : State) (die off n : Nat) : Option State :=
  if 2 ^ 64 ≤ (s.var die off).toNat + n then none
  else
    let s1 := settle (s.setVar die off (s.var die off + BitVec.ofNat 64 n)) die off
    some (fireAll s1 [(die, off)] s1.fireFuel)

/-! ## Sequenced additions (R201) -/

/-- A contribution is added: SUM in FP32, NEXT raised (R201). -/
def faddOnce (w b : Word) : Word :=
  let sum := encF .fp32 0 (sumFV [decF .fp32 (fld w 0 32), decF .fp32 (fld b 0 32)])
  putFld (putFld w 0 32 sum) 32 16 (fld w 32 16 + 1)
/-- Buffered contributions whose turn has come are added, one after another; `n` bounds them by the buffer. -/
def faddMore (s : State) (die off : Nat) : Nat → State
  | 0 => s
  | n + 1 =>
    let k := s.wharf die
    match k.reorder.find? (fun e => e.1 == off && fld e.2.b 32 16 == fld (s.var die off) 32 16) with
    | none => s
    | some e => faddMore ((s.setWharf die { k with reorder := k.reorder.erase e }).setVar die off
      (faddOnce (s.var die off) e.2.b)) die off n

/-- A contribution arrives at its variable (R201). -/
def faddArrive (s : State) (die off : Nat) (op : WOp) : State :=
  let w := s.var die off
  let d := (fld op.b 32 16 + 65536 - fld w 32 16) % 65536
  if d = 0 then faddMore (s.setVar die off (faddOnce w op.b)) die off (s.wharf die).reorder.length
  else if d ≤ 32767 then let k := s.wharf die; s.setWharf die { k with reorder := k.reorder ++ [(off, op)] }
  else s.setVar die off (putFld w 63 1 1)

/-! ## Performing -/

/-- A wait evaluated at its record (R205). -/
def performWait (s : State) (die off : Nat) (op : WOp) : State :=
  let s1 := useBarrier s die off
  let ix := s1.phaseIx die off
  let d := (fld op.b 0 9 + 512 - ix) % 512
  if d = 511 then answer s1 die op (.ok (waitWord 1 ix))
  else if 256 ≤ d then answer s1 die op (.ok (waitWord 2 ix))
  else if op.port = 0x31F ∧ fld op.b 32 32 = 0 then answer s1 die op (.ok (waitWord 3 ix))
  else
    let k := s1.wharf die
    let e := if op.port = 0x31F then some (s1.wall + (fld op.b 32 32 * 6 + 4) / 5) else none
    s1.setWharf die { k with waiters := k.waiters ++ [⟨op, off, e⟩] }

/-- An arm record enters the table, or fires at once, or is refused (R208). -/
def performArm (s : State) (die off : Nat) (op : WOp) : State :=
  let k := s.wharf die
  if 65536 ≤ k.armed.length ∨ 256 ≤ (k.armed.filter (fun a => a.key == off)).length then answer s die op (.ok 2)
  else
    let a : Armed := ⟨op.id, off, op.info, op.task.launch, op.spid, op.c⟩
    let s1 := s.setWharf die { k with armed := k.armed ++ [a] }
    if fld op.info 64 64 ≤ (s.var die off).toNat then answer (fireAll s1 [(die, off)] s1.fireFuel) die op (.ok 1)
    else answer s1 die op (.ok 0)

/-- Every armed operation of a counter is cancelled, in firing order, each with its report word written (R210). -/
def cancelArmed (s : State) (die off : Nat) : State :=
  let k := s.wharf die
  (dueArmed k.armed off (2 ^ 64)).foldl (fun s a => settle (s.setVar die (fld a.info 12 26) (cwWord 7 0)) die (fld a.info 12 26))
    (s.setWharf die { k with armed := k.armed.filter (fun a => a.key != off) })

/-- The effect of an operation at its Wharf (R200 to R210). -/
def performOp (s : State) (die : Nat) (op : WOp) : State :=
  let off := wOff op.addr
  let v := s.var die off
  let p := op.port
  if p = 0x310 then answer s die op (.ok v)
  else if p = 0x328 then
    if op.b.toNat ≤ v.toNat then answer s die op (.ok v)
    else let k := s.wharf die; s.setWharf die { k with waiters := k.waiters ++ [⟨op, off, none⟩] }
  else if p = 0x329 then
    let id := op.cmd.getD 0
    match increment s die off (fld op.b 0 46) with
    | none => finish s (op.c / 4) id 7 0
    | some t => finish t (op.c / 4) id 0 0
  else if p = 0x32A then performArm s die off op
  else if p = 0x32C then
    answer (settle ((cancelArmed s die off).setVar die off op.b) die off) die op (.ok v)
  else if p = 0x31E ∨ p = 0x31F then performWait s die off op
  else if p = 0x31C then
    if s.recArmed die off then answer s die op (.refused 0) else arrive s die off (fld op.b 0 48) op
  else if p = 0x31D then
    if s.recArmed die off then answer s die op (.refused 0)
    else answer (settle (addCount (useBarrier s die off) die off 1 (fld op.b 0 48)) die off) die op (.ok 0)
  else if s.armedAt die off then answer s die op (.refused v)
  else if p = 0x313 then answer (settle (faddArrive s die off op) die off) die op (.ok 0)
  else if p = 0x32B then answer (settle (s.setVar die off op.b) die off) die op (.ok v)
  else answer (settle (s.setVar die off (atomic (portOp p) v op.b op.e)) die off) die op (.ok v)

/-- The context of a task: as it stands, or as the device keeps it while the task is saved (R322). -/
def State.ctxFor (s : State) (c : Nat) (t : TaskRef) : Ctx :=
  if (s.ctx c).task = some t then s.ctx c
  else match s.saved.find? (fun v => v.c == c && v.task == t && !v.forDebug) with
  | some v => v.kept
  | none => s.ctx c
/-- Operations of a task on a context that stand unperformed at some Wharf, older than an age (R191, R202). -/
def State.wharfOlder (s : State) (c : Nat) (t : TaskRef) (age : Nat) : Bool := s.wharfs.any (fun e =>
  let old (o : WOp) : Bool := o.c == c && o.task == t && decide (o.age < age)
  e.2.inq.any old || e.2.reorder.any (fun o => old o.2) || e.2.heldArr.any (fun o => old o.2))
/-- An acquire of the context older than an age has not been answered at its Wharf (R202, R206). -/
def State.wharfAcq (s : State) (c : Nat) (t : TaskRef) (age : Nat) : Bool := s.wharfs.any (fun e =>
  let l := e.2.inq ++ e.2.waiters.map (fun w => w.op) ++ e.2.heldArr.map (fun h => h.2) ++ e.2.reorder.map (fun h => h.2)
  l.any (fun o => o.c == c && o.task == t && decide (o.age < age) && wOrd o.addr % 2 == 1))
/-- A release of the context may perform: its older queue entries have performed at the scope, and its older Wharf
operations at their Wharves (R202). -/
def State.released (s : State) (c : Nat) (t : TaskRef) (age scope : Nat) : Bool :=
  (s.ctxFor c t).drained age scope && !s.wharfOlder c t age

/-- A fence at whf or wider stands in the context, older than an age: the queues or the Wharves have still to perform what is older
than it (R191). -/
def State.fenceStands (s : State) (c : Nat) (t : TaskRef) (age : Nat) : Bool :=
  match (s.ctxFor c t).fence with
  | some (a, scope, _) => decide (6 ≤ scope) && decide (a < age) && !((s.ctxFor c t).drained a scope && !s.wharfOlder c t a)
  | none => false

/-- The contribution is to be buffered (R201). -/
def State.faddWaits (s : State) (die : Nat) (op : WOp) : Bool :=
  let d := (fld op.b 32 16 + 65536 - fld (s.var die (wOff op.addr)) 32 16) % 65536
  op.port == 0x313 && !s.armedAt die (wOff op.addr) && decide (1 ≤ d) && decide (d ≤ 32767)

/-- The operation may perform now: it is its context's oldest at this Wharf, no older acquire or fence stands, a release's older
work has performed, and the reorder buffer has room for a contribution that needs it (R191, R201, R202). An older contribution
that is buffered, or an older arrival that is held, keeps no later operation of its context back, though releases, acquires and
fences count it as unperformed: DESIGN CHOICE, since R191, R201 and R202 do not say (log 63). -/
def wharfReady (s : State) (die : Nat) (op : WOp) : Bool :=
  let k := s.wharf die
  !k.inq.any (fun o => o.c == op.c && o.task == op.task && decide (o.age < op.age)) && !s.wharfAcq op.c op.task op.age &&
  !(s.ctxFor op.c op.task).acqClaim op.fid && !s.fenceStands op.c op.task op.age &&
  (decide (wOrd op.addr < 2) || s.released op.c op.task op.age (wScope op.addr)) &&
  (!s.faddWaits die op || decide (k.reorder.length < 1024))

/-- The operation only reads its variable (R346). -/
def WOp.reads (op : WOp) : Bool := op.port == 0x310 || op.port == 0x328 || op.port == 0x31E || op.port == 0x31F
/-- The Wharf's access table refuses the operation (R346). -/
def refuseOp (s : State) (die : Nat) (op : WOp) : State :=
  match op.cmd with
  | some id => finish s (op.c / 4) id 3 0
  | none => answer s die op .denied

/-- The context has taken ENDPOINT_TIMEOUT on the operation's reply. -/
def State.timedOut (s : State) (c fid : Nat) : Bool :=
  ((s.ctx c).snap ++ (s.saved.filter (fun v => v.c == c && !v.forDebug)).flatMap (fun v => v.kept.snap)).any
    (fun f => f.fid == fid && match f.item with | .wharf _ _ _ t => t | _ => false)

/-- The stack that the operation waits for: its variable's, or, of syn.creset.f, that of a report word it writes (R199, R210,
R357). -/
def State.opStack (s : State) (die : Nat) (op : WOp) : Option Nat :=
  let k := s.wharf die
  ((wOff op.addr :: (if op.port = 0x32C then (k.armed.filter (fun a => a.key == wOff op.addr)).map (fun a => fld a.info 12 26)
      else [])).find? (fun off => s.varAsleep die off)).map (varStack die)
/-- The answer of an operation has still to land at its context (R199). -/
def State.owed (s : State) (op : WOp) : Bool := op.cmd.isNone && (s.ctxFor op.c op.task).snap.any (fun f => f.fid == op.fid)
/-- The operation stays in the Wharf's command log until its answer has landed (R199). -/
def logOp (s : State) (die : Nat) (op : WOp) : State :=
  let k := s.wharf die
  s.setWharf die { k with log := (k.log ++ [op]).filter s.owed }

/-- WHARF_OPERATION_PERFORM: an accepted operation takes its place in its variable's order, is refused by the access table,
or is held by its variable's stack (R199, R200, R202, R346). -/
def execWharfOperationPerform (die id : Nat) (s : State) : Host.Outcome State Fault Refusal :=
  match (s.wharf die).inq.find? (fun o => o.id == id) with
  | none => .next s
  | some op =>
    if !wharfReady s die op || s.cutOff (op.c / 384) die then .next s
    else match s.opStack die op with
    | some n => .next (s.holdAt n (.wharf die id))
    | none =>
      let k := s.wharf die
      let s0 := logOp (s.setWharf die { k with inq := k.inq.filter (fun o => o.id != id) }) die op
      let s1 := if s.admits (392 + die) (op.c / 4) op.spid (!op.reads) then performOp s0 die op else refuseOp s0 die op
      .next (if op.cmd.isNone && s.timedOut op.c op.fid then s1.corrected 8 op.addr op.task.launch (op.c / 4) else s1)

/-- WHARF_REPLY: an answer or acknowledgement arrives back at its context (R198). -/
def execWharfReply (c fid : Nat) (s : State) : Host.Outcome State Fault Refusal :=
  match ((s.wharfs.filter (fun e => !s.cutOff e.1 (c / 384))).flatMap (fun e => e.2.replies)).find? (fun r =>
      r.1 == c && r.2.1 == fid) with
  | none => .next s
  | some r =>
    if (s.ctx c).snap.any (fun f => f.fid == fid) then
      let s1 := s.updCtx c (fun x => { x with snap := x.snap.map (fun f =>
        if f.fid = fid then { f with item := match f.item with | .wharf p a _ t => .wharf p a r.2.2 t | i => i } else f) })
      .next { s1 with wharfs := s1.wharfs.map (fun e => (e.1, { e.2 with replies := e.2.replies.filter (· != r) })) }
    else if s.saved.any (fun v => v.c == c) then .next s
    else .next { s with wharfs := s.wharfs.map (fun e => (e.1, { e.2 with replies := e.2.replies.filter (· != r) })) }

/-- TWAIT_TIMEOUT: the limit of a timed wait has passed at the Wharf, and the cycle of its expiry is over (R205). -/
def execTwaitTimeout (die id : Nat) (s : State) : Host.Outcome State Fault Refusal :=
  let k := s.wharf die
  match k.waiters.find? (fun w => w.op.id == id) with
  | none => .next s
  | some w =>
    .next (if w.late s.wall then
        answer (s.setWharf die { k with waiters := k.waiters.filter (fun v => v.op.id != id) }) die w.op
          (.ok (waitWord 3 (s.phaseIx die w.key)))
      else s)

end Sys2Proof.Machine
end

