-- ==== Sys2Proof/Machine/Engine.lean ====
section
/-! DEFINITION. The transfer engine at work (R143 to R147, R161, R164): the order in which queue entries may perform, the
sectors of tile and Hold transfers, conversions, plane copies and metadata fills, and the replies of berth loads (R135
to R137). -/

namespace Sys2Proof.Machine

/-! ## Order of the queues (R170, R174 to R177, R318) -/

/-- Ranges of memory that a transfer or near-memory command has still to touch: address and length. -/
def Cmd.memRanges (k : Cmd) : List (Nat × Nat) :=
  if 0x340 ≤ k.port ∧ k.port ≤ 0x342 then k.left.map (fun i => (k.a.toNat + 64 * i, 64))
  else if 0x358 ≤ k.port ∧ k.port ≤ 0x35C then
    (nmUsed (nmKind k.port) k.info).map (fun i => (nmAddr k.info i, nmBytes (nmKind k.port) k.info i))
  else []

/-- The data of sector or record i of a command, of n bytes at an offset of its range: what was saved of it, else tile
SRAM (R318, R330). -/
def Cmd.dataOf (m : Mem) (k : Cmd) (i off n : Nat) : List Byte :=
  match k.data.find? (fun e => e.1 == i) with
  | some e => e.2
  | none => Mem.read m ((k.ranges.headD (0, 0)).1 + off) n
/-- The bytes of record i of a batch (R211). -/
def batchBytes (m : Mem) (k : Cmd) (i : Nat) : List Byte :=
  let n := batchRec (fld k.a 20 4)
  k.dataOf m i (n * i) n
/-- Target of record i of a batch (R211). -/
def batchTarget (m : Mem) (k : Cmd) (i : Nat) : Nat := leAt (batchBytes m k i) 0 8
/-- Ranges that a batch has still to touch: the targets of its records, and its return tile (R189). -/
def batchRanges (m : Mem) (k : Cmd) : List (Nat × Nat) :=
  (k.b.toNat, 8 * k.nsec) :: k.left.map (fun i => (batchTarget m k i, 8))

/-- Ranges of memory that a pending command has still to touch. -/
def State.cmdRanges (s : State) (k : Cmd) : List (Nat × Nat) :=
  if k.port = 0x32D then batchRanges (s.core (k.c / 4)).tile k
  else if k.port = 0x350 then s.aqRanges k
  else k.memRanges
/-- The context whose queues hold a command of context c: what is kept of a saved task, or the context as it stands. -/
def State.holder (s : State) (c id : Nat) : Ctx :=
  match s.saved.find? (fun v => v.c == c && v.cmds.any (fun k => k.id == id)) with
  | some v => v.kept
  | none => s.ctx c

/-- Ranges of memory that a queue entry has still to touch. -/
def State.entRanges (s : State) (c : Nat) (x : Ctx) (e : QEnt) : List (Nat × Nat) :=
  match e.kind with
  | .berth => x.snap.filterMap (fun f => if f.fid = e.id then (match f.item with
      | .berth a w _ _ => some (a.toNat, berthSize w) | _ => none) else none)
  | .cmd | .nm => match s.findCmd (c / 4) e.id with
    | some k => s.cmdRanges k
    | none => []
  | .marker | .fence => []

/-- It is not known yet which granules a queue entry will touch: the records of a batch are still to be written, or a rank of
this device has not joined an exchange (R143, R189, R266). -/
def State.entOpen (s : State) (c : Nat) (e : QEnt) : Bool :=
  match s.findCmd (c / 4) e.id with
  | some k =>
    if e.isMark then false
    else if k.port = 0x32D then
      let n := batchRec (fld k.a 20 4)
      k.left.any (fun i => !k.data.any (fun d => d.1 == i) && !s.tileFree (c / 4) k ((k.ranges.headD (0, 0)).1 + n * i) n)
    else k.port == 0x350 && s.aqOpen k
  | none => false

/-- An older entry of the queue has still to touch a granule of the range, or may have to (R170). -/
def State.granuleWait (s : State) (c : Nat) (x : Ctx) (q : List QEnt) (age lo n : Nat) : Bool :=
  q.any (fun m => decide (m.age < age) && (s.entOpen c m || (s.entRanges c x m).any (fun r =>
    meets (r.1 / 8) ((r.1 + r.2 + 7) / 8 - r.1 / 8) (lo / 8) ((lo + n + 7) / 8 - lo / 8))))

/-- An older exchange of the command's context has still to store elements on another device, so that a younger store to that
device's memory waits (R170, R189, R266). -/
def State.aqAhead (s : State) (k : Cmd) (dev : Nat) : Bool :=
  s.allCmds.any (fun m => m.port == 0x350 && m.c == k.c && m.task == k.task && decide (m.age < k.age) && m.fin.isNone && m.sendsTo dev)
/-- An older exchange of the command's context has still to store to a granule of another device that an exchange's block writes
there: `lo` and `n` are the block's range, none while its receiver has not joined (R170, R189, R266). -/
def State.aqFront (s : State) (k : Cmd) (dev : Nat) (rg : Option (Nat × Nat)) : Bool :=
  s.allCmds.any (fun m => m.port == 0x350 && m.c == k.c && m.task == k.task && decide (m.age < k.age) && m.fin.isNone &&
    m.aqLeft.any (fun e => m.devOf e.1 == dev && (match rg, s.aqRank m.task.launch (mapSeq m.info) e.1 with
      | some r, some j =>
        let a := fld j.info 256 64 + mapW m.info * e.2
        meets (a / 8) ((a + mapW m.info + 7) / 8 - a / 8) (r.1 / 8) ((r.1 + r.2 + 7) / 8 - r.1 / 8)
      | _, _ => true)))
/-- An older store or batch of the command's context has still to store to another device's memory, so that a block for it
waits (R170, R189). -/
def State.storeAhead (s : State) (k : Cmd) (dev : Nat) : Bool :=
  let far (m : Cmd) (va : Nat) : Bool := match s.trans (m.c / 4) m.spid va with
    | .at pa _ => inPeer pa && s.peerRank m.spid pa == some dev
    | _ => false
  s.allCmds.any (fun m => m.c == k.c && m.task == k.task && decide (m.age < k.age) &&
    (if m.port = 0x341 then m.left.any (fun i => far m (m.a.toNat + 64 * i))
     else if m.port = 0x32D then m.left.any (fun i => far m (batchTarget (s.core (m.c / 4)).tile m i)) else false))

/-- The entry of a command or berth in a queue of its context. -/
def Ctx.entry (x : Ctx) (id : Nat) : Option QEnt :=
  (x.loadQ ++ x.storeQ).find? (fun e => e.id == id && !e.isMark)

/-- The order of its context lets the entry perform, its granules apart: the queues allow it (R174, R175, R226), no older
acquire of the Wharf or fence at whf stands (R191, R202), and no older store is kept back by a full mooring queue (R318). A saved task's
queues keep their order (R178, R279). -/
def State.orderReady (s : State) (c id : Nat) : Bool :=
  let x := s.holder c id
  match x.entry id with
  | none => true
  | some e =>
    let st := x.storeQ.any (fun m => m.id == id)
    let t := match s.findCmd (c / 4) id with | some k => k.task | none => x.task.getD ⟨0, 0⟩
    x.mayPerform e st && !s.wharfAcq c t e.age && !s.fenceStands c t e.age &&
    !(st && s.allCmds.any (fun m => m.c == c && m.parked && decide (m.age < e.age)))

/-- The entry may perform on `n` bytes from `lo`: its context's order allows it, and the granules are its turn (R170). -/
def State.entryReady (s : State) (c id lo n : Nat) : Bool :=
  let x := s.holder c id
  match x.entry id with
  | none => true
  | some e =>
    let st := x.storeQ.any (fun m => m.id == id)
    s.orderReady c id && !s.granuleWait c x (if st then x.storeQ else x.loadQ) e.age lo n

/-- A queue entry of a command takes another kind, in the context or in what is kept of a saved task. -/
def State.entryKind (s : State) (c id : Nat) (kind : QKind) : State :=
  let set (x : Ctx) : Ctx := { x with storeQ := x.storeQ.map (fun e => if e.id = id ∧ !e.isMark then { e with kind := kind } else e) }
  let s1 := s.updCtx c set
  { s1 with saved := s1.saved.map (fun v => if v.c = c then { v with kept := set v.kept } else v) }

/-! ## Sectors -/

/-- The sector is done; it failed with a code, or not (code 0). -/
def Cmd.sectorDone (k : Cmd) (sec code : Nat) : Cmd :=
  { k with
    done := k.done ++ [sec], moored := k.moored.filter (· != sec)
    parked := false
    fails := if code = 0 then k.fails else k.fails ++ [(sec, code)] }
/-- FIRST and CODE of a command's failures: the lowest failing sector, and the lowest of its codes (R144). -/
def Cmd.verdict (k : Cmd) : Nat × Nat :=
  k.fails.foldl (fun a f => if a.2 = 0 ∨ f.1 < a.1 ∨ (f.1 = a.1 ∧ f.2 < a.2) then f else a) (0, 0)

/-- What a completed command does at its end beyond its tags: a metadata fill appends its entries (R161). -/
def appendMdq (s : State) (core : Nat) (k : Cmd) : State :=
  if k.port = 0x2FC then s.updCtx k.c (fun x =>
    if x.task = some k.task then
      let n := k.nsec / 2
      let r := k.ranges.headD (0, 0)
      { x with
        mdq := x.mdq ++ (List.range n).map (fun i => BitVec.ofNat 1024 (Mem.readLE (s.core core).tile (r.1 + 128 * i) 128))
        mdqPromised := x.mdqPromised - n }
    else x)
  else s

/-- A sector is done; after the last one the command ends (R144). -/
def closeSector (s : State) (core id sec code : Nat) : State :=
  let s1 := s.updCmd core id (fun k => k.sectorDone sec code)
  match s1.findCmd core id with
  | none => s1
  | some k =>
    if k.left = [] then
      let v := k.verdict
      finish (if v.2 = 0 then appendMdq s1 core k else s1) core id v.2 v.1
    else s1

/-- A block at its receiver whose bytes for a page another device has made visible, or refused with a code (R186, R264). -/
def pktSeen (p : Packet) (sec code : Nat) : Packet :=
  match p.note with
  | .waits left x => { p with note := .waits (left.erase sec) (lowCode ([x, code].filter (· != 0))) }
  | _ => p
/-- The block that waits for other devices under an identity, for one of its pages. -/
def pktWaits (p : Packet) (id sec : Nat) : Bool :=
  p.tag == id && (match p.note with | .waits left _ => left.contains sec | _ => false)
/-- A store that is away in another device is still pending (R349). -/
def State.storeOut (s : State) (from' id sec : Nat) : Bool :=
  if from' < 384 then (match s.findCmd from' id with | some k => k.away.contains sec | none => false)
  else if from' = 1000 then s.packets.any (fun p => pktWaits p id sec)
  else (s.wharf (from' - 384)).sent.any (fun a => a.id == id)
/-- A store that another device has made visible, or refused with a code: the sector of its command is done, the operation that
a Wharf fired has performed, or a page of an aqueduct block has (R186, R209, R264). -/
def endStore (s : State) (from' id sec code : Nat) : State :=
  if from' < 384 then
    match s.findCmd from' id with
    | some k => if k.away.contains sec then
        closeSector (s.updCmd from' id (fun m => { m with away := m.away.filter (· != sec) })) from' id sec code
      else s
    | none => s
  else if from' = 1000 then { s with packets := s.packets.map (fun p => if pktWaits p id sec then pktSeen p sec code else p) }
  else
    let w := s.wharf (from' - 384)
    match w.sent.find? (fun a => a.id == id) with
    | some a => report (s.setWharf (from' - 384) { w with sent := w.sent.erase a }) (from' - 384) a.info a.spid code
    | none => s

/-! ## Leaving for another device (R227, R228) -/

/-- Engine traffic is discarded: its command ends with LINK_FAILED, on every rank of a collective or exchange (R212, R228, R255,
R268). -/
def failLoad (s : State) (l : Launch) (x : Load) : State :=
  match x with
  | .pkt p => (match p.note with
    | .data | .failed _ => failSeq s l.id (if isBlock p then 0x350 else 0x338) (BitVec.ofNat 32 (fld p.hdr 32 32)) 5
    | .record core id i _ _ _ _ => closeSector s core id i 5
    | .store from' id sec _ => endStore s from' id sec 5
    | _ => s)
  | .peer x => (match x.kind with
    | .write | .read => finish s (ctxOfPos x.score.toNat / 4) x.id 5 0
    | .wrote | .answer => s)
/-- Engine traffic that has no way left is discarded, its launch is aborted, and the event is recorded (R228, R350). -/
def loseLoad (s : State) (l : Launch) (port : Nat) (x : Load) : State :=
  ((failLoad s l x).updLaunch l.id Launch.abort).event 0x09 2 (BitVec.ofNat 64 (if port = 99 then 0 else port)) l.id (400 + port % 24)

/-- A unit of engine traffic leaves for another device by the port of its route, or waits for `slots` slots of its skid buffer
(none); where no port is left it is lost (R227, R228). -/
def State.leave (s : State) (l : Launch) (die dev slots : Nat) (x : Load) : Option State :=
  let p := s.path l die dev
  if p = 99 then some (loseLoad s l p x)
  else if s.cutOff die (p / 6) then some (failLoad s l x)
  else if 4096 < s.skid p + slots then none
  else some { s with outbound := s.outbound ++ [⟨s.nextId, dev, die, some p, slots, x, []⟩], nextId := s.nextId + 1 }

/-- Slots of a packet: its header and its payload, 64 bytes a slot (R227, R246). -/
def pktSlots (p : Packet) : Nat := 1 + (p.payload.length + 63) / 64

/-! ## Waiting for pages -/

/-- Commands that stand in the mooring queue of a core (R318). -/
def State.mooredCount (s : State) (core : Nat) : Nat := ((s.core core).cmds.filter (fun k => k.moored != [])).length
/-- A sector of a store-queue entry enters the mooring queue, or waits at the head of its own queue while that is full
(R318). Every fence and release counts it from now on, whatever its scope (R175, R190). -/
def enterMoor (s : State) (core : Nat) (k : Cmd) (sec : Nat) : State :=
  if k.moored.contains sec then s
  else if k.moored = [] ∧ 512 ≤ s.mooredCount core then s.updCmd core k.id (fun m => { m with parked := true })
  else (s.updCmd core k.id (fun m => { m with moored := m.moored ++ [sec], parked := false })).entryKind k.c k.id .cmd
/-- A sector of a store-queue entry meets a page the kernel must map, and moors (R176). -/
def moor (s : State) (core : Nat) (k : Cmd) (sec va : Nat) : State := enterMoor (s.wantPage core k.spid va) core k sec

/-- Pages that the moored sectors of a command wait for, as page numbers. -/
def State.moorPages (s : State) (k : Cmd) : List Nat :=
  (k.moored.flatMap (fun i =>
    if k.port = 0x341 then [k.a.toNat + 64 * i]
    else if k.port = 0x32D then [batchTarget (s.core (k.c / 4)).tile k i, k.b.toNat + 8 * i]
    else (s.cmdRanges k).flatMap (fun r => pagesOf r.1 r.2))).map (fun va => va / 65536)
/-- An older entry of the command's store queue is moored on one of some pages, so that the command joins it (R176). -/
def State.joinsMoor (s : State) (k : Cmd) (pages : List Nat) : Bool :=
  s.orderReady k.c k.id && s.allCmds.any (fun m => m.c == k.c && decide (m.age < k.age) && m.moored != [] && m.spid == k.spid &&
    (s.moorPages m).any pages.contains)

/-- ADMIT of a region, by the bytes of one sector (R363). -/
def State.admitSector (s : State) (tag : Option Nat) : State :=
  match tag with
  | some g => { s with admitted := bump s.admitted g 64 }
  | none => s
/-- The delta of a region has reached a bound (R364). -/
def State.overBound (s : State) (g : Nat) : Bool :=
  decide (s.abound ≤ NMap.get 0 s.admitted g - NMap.get 0 s.cadmit g) ||
  decide (s.bbound ≤ NMap.get 0 s.beat g - NMap.get 0 s.cbeat g)
/-- The region id of the page of an address: that of its frame, or the one it keeps in the compressed tier (R360). -/
def State.tagAt (s : State) (master spid va : Nat) : Option Nat :=
  match s.trans master spid va with
  | .at pa _ => s.tagOf pa
  | .tier => s.tierTag spid va
  | .fault | .asleep => none
/-- A range of an address space reads some tagged region whose delta has reached a bound (R364). -/
def State.boundHit (s : State) (master spid va n : Nat) : Bool :=
  (pagesOf va n).any (fun p => match s.tagAt master spid p with | some g => s.overBound g | none => false)

/-- The bytes of a load's sector reach their place, and count (R140, R141, R361, R363). -/
def putSector (s : State) (core : Nat) (k : Cmd) (sec : Nat) (bs : List Byte) (tag : Option Nat) : State :=
  let s1 :=
    if k.port = 0x342 then s.updCore core (fun c =>
      let off := k.holdOff + 64 * sec
      { (c.putHold off bs) with htags := match tag with
          | some g => NMap.put c.htags (off / 64) (g + 1)
          | none => NMap.del c.htags (off / 64) })
    else s.updCore core (fun c => c.putTile ((k.ranges.headD (0, 0)).1 + 64 * sec) bs)
  s1.admitSector tag

/-- The pages of a range that are still to be mapped. -/
def State.pagesAway (s : State) (master spid va n : Nat) : List Nat :=
  (pagesOf va n).filter (fun p => s.reach master spid p Need.counted == .unmapped)

/-- A sector of eng.tld or eng.hld reads memory (R140 to R145). Before its first sector, the command is checked against the
bounds of every tagged region it reads, once its pages are all mapped, to be judged (R364). -/
def loadSector (s : State) (core : Nat) (k : Cmd) (sec : Nat) : State :=
  let va := k.a.toNat + 64 * sec
  let away := if k.prog = 0 then s.pagesAway core k.spid k.a.toNat (64 * k.nsec) else []
  if away ≠ [] then away.foldl (fun s p => s.wantPage core k.spid p) s
  else if k.prog = 0 ∧ s.boundHit core k.spid k.a.toNat (64 * k.nsec) then finish s core k.id 3 0
  else match s.reach core k.spid va Need.counted with
  | .unmapped => s.wantPage core k.spid va
  | .expand => s
  | .noMap => closeSector s core k.id sec 4
  | .denied => closeSector (s.fillTlb core k.spid va) core k.id sec 3
  | .at pa =>
    if s.asleep pa then s.holdFor pa (.sector core k.id sec)
    else
      let s1 := (s.fillTlb core k.spid va).updCmd core k.id (fun m => { m with prog := 1 })
      if marksHit s.marks pa 64 then closeSector s1 core k.id sec 1
      else closeSector (putSector s1 core k sec (Mem.read s.mem pa 64) (s.tagOf pa)) core k.id sec 0

/-- Rank that a peer-window address names for the launch of a command; 0 where it names none (R332). -/
def State.peerOf (s : State) (spid pa : Nat) : Nat := (s.peerRank spid pa).getD 0
/-- A sector for another device's memory leaves for it, and is done once it is visible there (R186, R227). -/
def sendSector (s : State) (core : Nat) (k : Cmd) (sec pa : Nat) (bs : List Byte) : State :=
  match s.launchOf k.task.launch with
  | none => s
  | some l =>
    let dev := s.peerOf k.spid pa
    let p : Packet := ⟨0, bs, l.id, homeOf core, l.rank, 0, .store core k.id sec (pa % 2 ^ 39)⟩
    if s.aqAhead k dev then s
    else match s.leave l (core / 96) dev 2 (.pkt p) with
    | none => s
    | some t => t.updCmd core k.id (fun m =>
        if m.done.contains sec then m else { m with away := m.away ++ [sec], moored := m.moored.filter (· != sec), parked := false })
/-- The bytes of a sector or record that a command is to store come from a marked line, as it stands or as it was saved
(R352). -/
def Cmd.sourceBad (k : Cmd) (c : Core) (i off n : Nat) : Bool :=
  if k.data.any (fun e => e.1 == i) then k.lost.contains i else marksHit c.tmarks off n

/-- A sector of eng.tst writes memory; one whose source line is marked keeps its old contents (R145, R352). -/
def storeSector (s : State) (core : Nat) (k : Cmd) (sec : Nat) : State :=
  let va := k.a.toNat + 64 * sec
  let off := (k.ranges.headD (0, 0)).1 + 64 * sec
  let bs := k.dataOf (s.core core).tile sec (64 * sec) 64
  if k.sourceBad (s.core core) sec off 64 then closeSector s core k.id sec 1
  else match s.reach core k.spid va Need.write with
  | .unmapped => moor s core k sec va
  | .expand => s
  | .noMap => closeSector s core k.id sec 4
  | .denied => closeSector (s.fillTlb core k.spid va) core k.id sec 3
  | .at pa =>
    if s.asleep pa then s.holdFor pa (.sector core k.id sec)
    else if inPeer pa then sendSector (s.fillTlb core k.spid va) core k sec pa bs
    else closeSector ((s.fillTlb core k.spid va).putMem pa bs) core k.id sec 0

/-- The first marked 64-byte line of a tile-SRAM range, counted from its start. -/
def firstMark (m : NMap (BitVec 64)) (off n : Nat) : Option Nat :=
  (List.range ((n + 63) / 64)).find? (fun i => marksHit m (off + 64 * i) (min 64 (n - 64 * i)))

/-- The bytes that a conversion writes (R147). -/
def convert (src : List Byte) (f tgt : Fmt) (mod n : Nat) : List Byte :=
  if f.isKB then
    let w := width tgt / 8
    (List.range (16 * n)).flatMap (fun e =>
      leBytes w (encElem tgt mod (kbElem f (leAt src (e / 16 * kbBytes f) (kbBytes f)) (e % 16))))
  else
    let w := width f / 8
    (List.range n).flatMap (fun b =>
      leBytes (kbBytes tgt) (kbEncode tgt (mod / 4 % 2 == 1)
        ((List.range 16).map (fun i => decElem f (leAt src ((16 * b + i) * w) w)))))

/-- eng.tcvt runs (R147): a marked source line ends it with CODE 1. -/
def runTcvt (s : State) (core : Nat) (k : Cmd) : State :=
  let a := k.ranges.getD 0 (0, 0)
  let b := k.ranges.getD 1 (0, 0)
  match firstMark (s.core core).tmarks a.1 a.2 with
  | some i => finish s core k.id 1 i
  | none =>
    let bs := convert (Mem.read (s.core core).tile a.1 a.2) (Fmt.ofCodeRaw (fld k.info 0 5)) (Fmt.ofCodeRaw (fld k.a 16 5))
      (k.port - 0x348) (fld k.a 32 16)
    finish (s.updCore core (fun c => c.putTile b.1 bs)) core k.id 0 0

/-- A beat, or a drain as well, fired on a plane before a copy's acceptance has not landed (R164). -/
def State.planeBusy (s : State) (k : Cmd) : Bool :=
  (s.ctx k.c).snap.any (fun f => decide (f.fid < k.id) && match f.item with
    | .beat _ w _ _ _ _ _ _ _ _ _ => some (wPlane w) == k.plane
    | .drain w _ _ => k.port == 0x2FA && some (wPlane w) == k.plane
    | _ => false)

/-- A 64-byte sector of a plane copy (R164). -/
def copySector (s : State) (core : Nat) (k : Cmd) (sec : Nat) : State :=
  let pl := k.plane.getD 0
  let p := (s.core core).plane pl
  let off := (k.ranges.headD (0, 0)).1 + 64 * sec
  if k.port = 0x2FB then
    let bs := (List.range 16).flatMap (fun i => leBytes 4 (lane p.cells (16 * sec + i)).toNat)
    let s1 := s.updCore core (fun c =>
      let d := c.putTile off bs
      if p.taint then { d with tmarks := marksSet d.tmarks (off / 64) } else d)
    closeSector s1 core k.id sec (if p.taint then 1 else 0)
  else if marksHit (s.core core).tmarks off 64 then closeSector s core k.id sec 1
  else
    let cells := lanesOf 4096 (fun n =>
      if n / 16 = sec then BitVec.ofNat 32 (Mem.readLE (s.core core).tile (off + 4 * (n % 16)) 4) else lane p.cells n)
    closeSector (s.updCore core (fun c => { c with planes := NMap.put c.planes pl ⟨cells, .fp32, false⟩ })) core k.id sec 0

/-- The sector may proceed: tile bytes and bay free (R143), the queue's order met, a copy's plane quiet (R164), a
metadata fill's turn come (R161). -/
def sectorReady (s : State) (core : Nat) (k : Cmd) (sec : Nat) : Bool :=
  let off := (k.ranges.headD (0, 0)).1 + 64 * sec
  if k.away.contains sec then false
  else if k.port = 0x340 ∨ k.port = 0x341 then s.tileFree core k off 64 && s.entryReady k.c k.id (k.a.toNat + 64 * sec) 64
  else if k.port = 0x342 then s.bayFree core k && s.entryReady k.c k.id (k.a.toNat + 64 * sec) 64
  else if 0x348 ≤ k.port ∧ k.port ≤ 0x34F then k.ranges.all (fun r => s.tileFree core k r.1 r.2)
  else if k.port = 0x2FA ∨ k.port = 0x2FB then s.tileFree core k off 64 && !s.planeBusy k
  else if k.port = 0x2FC then
    s.tileFree core k off 64 && !(s.core core).cmds.any (fun m => m.port == 0x2FC && m.c == k.c && decide (m.id < k.id))
  else false

/-- One sector of a command proceeds. -/
def runSector (s : State) (core : Nat) (k : Cmd) (sec : Nat) : State :=
  if k.port = 0x340 ∨ k.port = 0x342 then loadSector s core k sec
  else if k.port = 0x341 then storeSector s core k sec
  else if 0x348 ≤ k.port ∧ k.port ≤ 0x34F then runTcvt s core k
  else if k.port = 0x2FA ∨ k.port = 0x2FB then copySector s core k sec
  else closeSector s core k.id sec (if marksHit (s.core core).tmarks ((k.ranges.headD (0, 0)).1 + 64 * sec) 64 then 1 else 0)

/-- ENGINE_SECTOR_RETURN: a sector of a pending command takes effect (R143). A store behind a moored one on its page joins
the mooring queue (R176). -/
def execEngineSectorReturn (core id sec : Nat) (s : State) : Host.Outcome State Fault Refusal :=
  match (s.core core).cmds.find? (fun k => k.id == id) with
  | none => .next s
  | some k =>
    .next (if !(sec < k.nsec && !k.done.contains sec) then s
      else if sectorReady s core k sec then runSector s core k sec
      else if k.port == 0x341 && s.joinsMoor k [(k.a.toNat + 64 * sec) / 65536] then enterMoor s core k sec
      else s)

/-- The sector's place is asleep, or an entry of its walk, and its endpoint timer stands (R357). -/
def State.sectorAsleep (s : State) (core : Nat) (k : Cmd) (sec : Nat) : Bool :=
  match s.trans core k.spid (k.a.toNat + 64 * sec) with
  | .at pa _ => s.asleep pa
  | .asleep => true
  | _ => false

/-- SECTOR_TIMEOUT: the first retries the sector, the second ends the command with LINK_FAILED (R144); of peer reads too
(R270). -/
def execSectorTimeout (core id sec : Nat) (s : State) : Host.Outcome State Fault Refusal :=
  match (s.core core).cmds.find? (fun k => k.id == id) with
  | none => .next s
  | some k =>
    let mine := (decide (0x340 ≤ k.port) && decide (k.port ≤ 0x342) && sectorReady s core k sec && !s.sectorAsleep core k sec) ||
      (k.port == 0x341 && k.away.contains sec) || k.port == 0x351 || k.port == 0x352
    if !(decide (sec < k.nsec) && !k.done.contains sec && !k.moored.contains sec && mine) then .next s
    else if k.retried.contains sec then
      let v := (k.sectorDone sec 5).verdict
      .next (finish s core id v.2 v.1)
    else .next (s.updCmd core id (fun m => { m with retried := m.retried ++ [sec] }))

/-! ## Berth replies (R135 to R137, R338) -/

/-- The reply that a berth load meets now: none while it waits for an expansion or for a stack in self-refresh; the
lowest address of the first cause in the order of R312. -/
def State.berthAnswer (s : State) (master spid va n : Nat) : BerthData :=
  let l := (pagesOf va n).map (fun p => (p, s.reach master spid p Need.read))
  match l.find? (fun e => e.2 == .unmapped || e.2 == .noMap) with
  | some e => .fault 0x08 (BitVec.ofNat 64 e.1) []
  | none =>
    match l.find? (fun e => e.2 == .denied) with
    | some e => .fault 0x09 (BitVec.ofNat 64 e.1) []
    | none =>
      if l.any (fun e => match e.2 with | .at pa => s.asleep pa | _ => true) then .absent
      else
        let pa (a : Nat) : Nat := (l.foldl (fun (q : Nat) e =>
          match e.2 with | .at p => if e.1 ≤ a then p + (a - e.1) else q | _ => q) 0)
        let bs := (List.range n).map (fun i => Mem.get s.mem (pa (va + i)))
        match (List.range n).find? (fun i => marksHit s.marks (pa (va + i)) 1) with
        | some i => .fault 0x10 (BitVec.ofNat 64 (va + i)) bs
        | none => .data bs

/-- The reply of a berth is set. -/
def Ctx.putReply (x : Ctx) (fid : Nat) (r : BerthData) : Ctx :=
  { x with snap := x.snap.map (fun f => if f.fid = fid then
      { f with item := match f.item with | .berth a w _ t => .berth a w r t | i => i } else f) }

/-- BERTH_REPLY: the load performs and its data waits in its berth, or the fault it will take at its landing (R136,
R137). A load that met a fault stays in its queue until it is reissued and performs; while its context is halted, it
waits for the resumption (R138). -/
def execBerthReply (c fid : Nat) (s : State) : Host.Outcome State Fault Refusal :=
  let x := s.ctx c
  match x.snap.find? (fun f => f.fid == fid) with
  | none => .next s
  | some f =>
    match f.item with
    | .berth a w .absent _ =>
      let n := berthSize w
      if !s.entryReady c fid a.toNat n then .next s else
      match s.berthAnswer (c / 4) x.spid a.toNat n with
      | .absent | .again =>
        .next ((pagesOf a.toNat n).foldl (fun s p => match s.reach (c / 4) x.spid p Need.read with
          | .at pa => if s.asleep pa then s.holdFor pa (.berth c fid) else s
          | _ => s) s)
      | .fault cause addr bs =>
        let s1 := (s.fillPages (c / 4) x.spid a.toNat n).updCtx c (fun y => y.putReply fid
          (if x.stat = .ready then .fault cause addr bs else .again))
        .next (if cause = 0x10 then s1.updCtx c (fun y => y.dequeue .berth fid)
          else if cause = 0x08 then s1.wantPage (c / 4) x.spid addr.toNat else s1)
      | .data bs =>
        .next ((s.fillPages (c / 4) x.spid a.toNat n).updCtx c (fun y => (y.putReply fid (.data bs)).dequeue .berth fid))
    | _ => .next s

end Sys2Proof.Machine
end

