-- ==== Sys2Proof/Machine/Links.lean ====
section
/-! DEFINITION. Messages on their way (R225 to R228), engine traffic that leaves for other devices (R227), UALink ports that
fail (R228), and the UALink atomics of other devices (R378). -/

namespace Sys2Proof.Machine

/-! ## The inlet (R225, R326) -/

/-- Key of a message's source, as `srcKey` makes it from a source word. -/
def msgKey (m : Msg) : Nat := m.sdev.toNat * 8192 + m.src.toNat

/-- Address of inlet entry i of an image, and the word that carries INCOUNT (R324, R326). -/
def inletAt (addr i : Nat) : Nat := addr + 192 + 32 * i
/-- A message as an inlet entry with its ordinal (R326). -/
def inletEntry (m : Msg) (k : Nat) : Nat :=
  k % 2 ^ 32 + m.scope.toNat * 2 ^ 115 + (if m.rel then 2 ^ 119 else 0) + m.src.toNat * 2 ^ 131 + m.sdev.toNat * 2 ^ 144 +
    m.stamp.toNat * 2 ^ 160 + m.payload.toNat * 2 ^ 192

/-- The context holds a task of the launch that has started. One whose inputs are still being staged, and whose binding may
be cancelled (R310), accepts no message yet: DESIGN CHOICE, since R225 does not say when a task's inlet opens (log 52). -/
def State.holdsLaunch (s : State) (c : Nat) (launch : Word) : Bool :=
  match (s.ctx c).task with | some t => t.launch == launch && (s.ctx c).stat != .staging | none => false
/-- The record is that of a task that may be restored: neither a debugger's copy nor lost. -/
def Saved.live (v : Saved) : Bool := !v.forDebug && !v.lost
/-- A saved task of the launch that belongs to the context. -/
def State.savedAt (s : State) (c : Nat) (launch : Word) : Option Saved :=
  s.saved.find? (fun v => v.c == c && v.task.launch == launch && v.live)
/-- A task of the launch has ended on the context and has not retired. -/
def Launch.endedAt (l : Launch) (c : Nat) : Bool := l.tstat.any (fun e => e.2 == .ended c)

/-- Every task of the launch that could hold the context has ended: one has ended there, and none that is left is placed
there or may be placed anywhere (R225, R302). -/
def Launch.over (l : Launch) (c : Nat) : Bool :=
  l.gone.contains c && (List.range l.tasks.length).all (fun i =>
    let p := fld (l.tasks.getD i 0) 32 16
    match NMap.get .waiting l.tstat i with
    | .waiting => !(decide (32768 ≤ p) || ctxOfPos (p % 8192) == c)
    | .bound d | .running d | .preempted d => d != c
    | .ended _ | .retired | .skipped => true)

/-- Acceptance of a message at its destination context: into the inlet of the task of its launch that holds the context,
else into the image of one that is saved; a message for an ended task is discarded; otherwise it waits (R225). -/
def acceptMsg (s : State) (l : Launch) (m : Msg) : Option State :=
  let c := ctxOfPos m.dst.toNat
  if s.holdsLaunch c l.id then
    let x := s.ctx c
    if 64 ≤ x.inlet.length then none
    else
      let k := NMap.get 0 x.arrived (msgKey m) + 1
      some (s.setCtx c { x with inlet := x.inlet ++ [(k, m)], arrived := NMap.put x.arrived (msgKey m) k })
  else match s.savedAt c l.id with
  | some v =>
    let n := Mem.readLE s.mem (v.addr + 11) 1
    if 64 ≤ n || s.asleep v.addr then none
    else
      let k := NMap.get 0 v.arrived (msgKey m) + 1
      let s1 := (s.putMem (inletAt v.addr n) (leBytes 32 (inletEntry m k))).putMem (v.addr + 11) (leBytes 1 (n + 1))
      some { s1 with saved := s1.saved.map (fun w => if w = v then { w with arrived := NMap.put w.arrived (msgKey m) k } else w) }
  | none => if (s.ctx c).launchId != l.id && (l.endedAt c || l.over c) then some s else none

/-- The message may have left its core: it and every earlier send of its context are released (R221, R226). -/
def State.flitFree (s : State) (f : Flit) : Bool :=
  (s.flits.filter (fun e => e.c == f.c && decide (e.id ≤ f.id))).all (fun e =>
    e.gone || e.took || s.released e.c e.task e.age e.msg.scope.toNat)
/-- It is the oldest of its sender for its destination that has not been accepted (R225). -/
def State.flitFirst (s : State) (f : Flit) : Bool :=
  !(s.flits.any (fun e => decide (e.id < f.id) && !e.took && e.msg.src == f.msg.src && e.msg.ddev == f.msg.ddev &&
    e.msg.dst == f.msg.dst && e.msg.launch == f.msg.launch))

/-- A message waits for its acceptance; one for a saved task whose image sleeps is held by that stack (R225, R357). -/
def State.msgWaits (s : State) (l : Launch) (m : Msg) : State :=
  match s.savedAt (ctxOfPos m.dst.toNat) l.id with
  | some v => if !s.holdsLaunch (ctxOfPos m.dst.toNat) l.id && s.asleep v.addr then s.holdFor v.addr (.message m) else s
  | none => s
/-- MESSAGE_ARRIVAL: a message reaches its destination and is accepted, or waits (R225). One of this device's own
senders is the flit that carries it. -/
def execMessageArrival (msg : Msg) (s : State) : Host.Outcome State Fault Refusal :=
  match s.launchOf msg.launch with
  | none => .next s
  | some l =>
    if msg.ddev.toNat != l.rank then .next s
    else if msg.sdev.toNat != l.rank then .next ((acceptMsg s l msg).getD (s.msgWaits l msg))
    else match s.flits.find? (fun f => f.msg == msg && !f.took) with
    | none => .next s
    | some f =>
      if s.flitFree f && s.flitFirst f && !s.cutOff (f.core / 96) (dieOf (ctxOfPos msg.dst.toNat)) then
        .next (match acceptMsg s l msg with
          | none => s.msgWaits l msg
          | some t => { t with flits := t.flits.map (fun e => if e.id = f.id then { e with took := true, gone := true } else e) })
      else .next s

/-! ## Engine traffic (R227, R228) -/

/-- A flit waits for no older flit of the port that it was moved to (R228). -/
def Flit.leads (f : Flit) : Bool := f.behind == []
/-- Flits that leave their ports free those that were moved there behind them (R228). -/
def departFlits (s : State) : State :=
  let stay := (s.flits.filter (fun f => !(f.leads && s.flitFree f))).map (fun f => f.id) ++
    (s.outbound.filter (fun o => o.behind != [])).map (fun o => o.id)
  { s with
    flits := s.flits.map (fun f => { f with behind := f.behind.filter stay.contains })
    outbound := s.outbound.map (fun o => { o with behind := o.behind.filter stay.contains }) }

/-- MESSAGE_ACKNOWLEDGEMENT: the slot of a message is free again (R227): one for another device is accepted there. A unit of
engine traffic that has left for another device gives its slots back. -/
def execMessageAcknowledgement (id : Nat) (s : State) : Host.Outcome State Fault Refusal :=
  match s.flits.find? (fun f => f.id == id) with
  | none => .next ({ s with outbound := s.outbound.filter (fun o => o.id != id || o.behind != []) }).slotFreed
  | some f =>
    let rank := match s.launchOf f.msg.launch with | some l => l.rank | none => 0
    let ready := if f.msg.ddev.toNat = rank then f.took else s.flitFree f && s.flitFirst f && f.leads
    .next (if ready then ({ s with flits := s.flits.filter (fun e => e.id != id) }).slotFreed else s)

/-- FLIT_RESEND: a port resends its unacknowledged flits; the partner discards what it has accepted, so nothing but
wall-clock time passes (R228). -/
def execFlitResend (_port : Nat) (s : State) : Host.Outcome State Fault Refusal := .next s

/-- The launch of a unit of engine traffic. -/
def Load.launch (x : Load) : Word := match x with | .pkt p => p.launch | .peer x => x.launch
/-- What a port holds of a launch, that a flit moved there may not leave before (R228). -/
def State.queuedOn (s : State) (port : Nat) (launch : Word) : List Nat :=
  (s.flits.filter (fun e => e.port == port && e.msg.launch == launch)).map (fun e => e.id) ++
  (s.outbound.filter (fun o => o.port == some port && o.load.launch == launch)).map (fun o => o.id)
/-- A message's flit moves to the next port of its route, behind the port's own older flits of the launch; where none is left
it is discarded and its launch is aborted (R228, R350). -/
def moveFlit (s : State) (port : Nat) (f : Flit) : State :=
  match s.launchOf f.msg.launch with
  | none => s
  | some l =>
    let p := s.path l (f.core / 96) f.msg.ddev.toNat
    if p = 99 then (s.updLaunch l.id Launch.abort).event 0x09 2 (BitVec.ofNat 64 port) l.id (400 + port)
    else
      ({ s with flits := s.flits ++ [{ f with port := p, behind := s.queuedOn p l.id }] }).corrected 0x09
        (BitVec.ofNat 64 port) l.id (400 + port)

/-- A unit of engine traffic moves to the next port of its route, or is lost (R228, R350). -/
def moveOut (s : State) (port : Nat) (o : Out) : State :=
  match s.launchOf o.load.launch with
  | none => s
  | some l =>
    let p := s.path l o.die o.dev
    if p = 99 then loseLoad s l port o.load
    else ({ s with outbound := s.outbound ++ [{ o with port := some p, behind := s.queuedOn p l.id }] }).corrected 0x09
      (BitVec.ofNat 64 port) l.id (400 + port)

/-- A list in ascending order of its first components, with an entry put in its place. -/
def insertById {α : Type} (x : Nat × α) : List (Nat × α) → List (Nat × α)
  | [] => [x]
  | y :: t => if x.1 < y.1 then x :: y :: t else y :: insertById x t

/-- What a failed port has sent and its partner has not acknowledged moves to other ports, in order (R228). -/
def rerouteFlits (s : State) (port : Nat) : State :=
  let flits := (s.flits.filter (fun f => f.port == port)).map (fun f => (f.id, (Sum.inl f : Sum Flit Out)))
  let outs := (s.outbound.filter (fun o => o.port == some port)).map (fun o => (o.id, (Sum.inr o : Sum Flit Out)))
  let s0 := { s with
    flits := s.flits.filter (fun f => f.port != port)
    outbound := s.outbound.filter (fun o => o.port != some port) }
  (((flits ++ outs).foldl (fun l e => insertById e l) []).foldl (fun s e => match e.2 with
    | .inl f => moveFlit s port f
    | .inr o => moveOut s port o) s0).slotFreed

/-- LINK_DOWN: UALink declares a port's link down (R228). -/
def execLinkDown (port : Nat) (s : State) : Host.Outcome State Fault Refusal :=
  if 24 ≤ port ∨ s.deadPorts.contains port then .next s
  else .next (rerouteFlits { s with deadPorts := s.deadPorts ++ [port] } port)

/-- UALINK_ATOMIC_REQUEST: an atomic of another device is completed with an error and recorded (R378). -/
def execUalinkAtomicRequest (port : Nat) (s : State) : Host.Outcome State Fault Refusal :=
  .next (s.event 0x09 1 (BitVec.ofNat 64 port) 0 (400 + port))

end Sys2Proof.Machine
end

