-- ==== Sys2Proof/Machine/XchRed.lean ====
section
/-! DEFINITION. The exchange unit xch (R86, R87) and the reduction unit red (R88 to R92). -/

namespace Sys2Proof.Machine

/-! ## Exchange -/

/-- A trigger of xch: lane (r, c) of the result is given by the lanes of .a and the amount in .b; the result carries
the tag of .a, RAW for an untagged broadcast (R86). -/
def xchTrig (lat : Nat) (h : NMap Lane → Word → Nat → Nat → Lane) (g : BitVec 4) (src : BitVec 10) (s : State) :
    Host.Outcome State Fault Refusal :=
  trigger s g src [] [] (fun t =>
    let a := t.cx.aV 6
    let b := t.cx.bS 6
    t.land lat 0x08C (.v ⟨lanesOf 1024 (fun k => h a.lanes b (k / 64) (k % 64)), if a.unt then .raw else a.tag, false⟩))

/-- A permute of xch by the index register v(VB + k) (R76, R86). -/
def xchPerm (lat : Nat) (h : NMap Lane → NMap Lane → Nat → Nat → Lane) (g : BitVec 4) (src : BitVec 10)
    (k : BitVec 3) (s : State) : Host.Outcome State Fault Refusal :=
  trigger s g src [chk (s.cx.thirdOut k) s.cls4] [] (fun t =>
    let a := t.cx.aV 6
    let i := t.cx.third k
    t.land lat 0x08C (.v ⟨lanesOf 1024 (fun n => h a.lanes i.lanes (n / 64) (n % 64)), if a.unt then .raw else a.tag, false⟩))

/-- Lane (r, c) of a vector. -/
def at2 (m : NMap Lane) (r c : Nat) : Lane := lane m (64 * r + c)

/-- xch.rotr: rotation along the row axis (R86). -/
def execXchRotr (g : BitVec 4) (src : BitVec 10) (s : State) : Host.Outcome State Fault Refusal :=
  xchTrig 4 (fun a b r c => at2 a r ((c + 64 - fld b 0 6) % 64)) g src s

/-- xch.shfr: shift along the row axis, zero fill (R86). -/
def execXchShfr (g : BitVec 4) (src : BitVec 10) (s : State) : Host.Outcome State Fault Refusal :=
  xchTrig 4 (fun a b r c => if fld b 0 7 ≤ c then at2 a r (c - fld b 0 7) else 0) g src s

/-- xch.xorr: lane c XOR b along the row axis (R86). -/
def execXchXorr (g : BitVec 4) (src : BitVec 10) (s : State) : Host.Outcome State Fault Refusal :=
  xchTrig 4 (fun a b r c => at2 a r (c ^^^ fld b 0 6)) g src s

/-- xch.tr16: transposition of the four 16 × 16 blocks (R86). -/
def execXchTr16 (g : BitVec 4) (src : BitVec 10) (s : State) : Host.Outcome State Fault Refusal :=
  xchTrig 4 (fun a _ r c => at2 a (c % 16) (16 * (c / 16) + r)) g src s

/-- xch.rotc: rotation down the column axis (R86). -/
def execXchRotc (g : BitVec 4) (src : BitVec 10) (s : State) : Host.Outcome State Fault Refusal :=
  xchTrig 2 (fun a b r c => at2 a ((r + 16 - fld b 0 4) % 16) c) g src s

/-- xch.shfc: shift down the column axis, zero fill (R86). -/
def execXchShfc (g : BitVec 4) (src : BitVec 10) (s : State) : Host.Outcome State Fault Refusal :=
  xchTrig 2 (fun a b r c => if fld b 0 5 ≤ r then at2 a (r - fld b 0 5) c else 0) g src s

/-- xch.xorc: lane r XOR b down the column axis (R86). -/
def execXchXorc (g : BitVec 4) (src : BitVec 10) (s : State) : Host.Outcome State Fault Refusal :=
  xchTrig 2 (fun a b r c => at2 a (r ^^^ fld b 0 4) c) g src s

/-- xch.bcrow: row b in every row (R86). -/
def execXchBcrow (g : BitVec 4) (src : BitVec 10) (s : State) : Host.Outcome State Fault Refusal :=
  xchTrig 2 (fun a b _ c => at2 a (fld b 0 4) c) g src s

/-- xch.bccol: column b in every column (R86). -/
def execXchBccol (g : BitVec 4) (src : BitVec 10) (s : State) : Host.Outcome State Fault Refusal :=
  xchTrig 2 (fun a b r _ => at2 a r (fld b 0 6)) g src s

/-- xch.bclane: one lane in every lane (R86). -/
def execXchBclane (g : BitVec 4) (src : BitVec 10) (s : State) : Host.Outcome State Fault Refusal :=
  xchTrig 2 (fun a b _ _ => at2 a (fld b 8 4) (fld b 0 6)) g src s

/-- xch.permr.kN: lane c of a row by the index's bits 5:0 (R86). -/
def execXchPermr (g : BitVec 4) (src : BitVec 10) (k : BitVec 3) (s : State) : Host.Outcome State Fault Refusal :=
  xchPerm 4 (fun a i r c => at2 a r (fld (at2 i r c) 0 6)) g src k s

/-- xch.permc.kN: lane r of a column by the index's bits 3:0 (R86). -/
def execXchPermc (g : BitVec 4) (src : BitVec 10) (k : BitVec 3) (s : State) : Host.Outcome State Fault Refusal :=
  xchPerm 2 (fun a i r c => at2 a (fld (at2 i r c) 0 4) c) g src k s

/-! ## Reduction -/

/-- The formats red accepts (R89). -/
def redFmt (f : Fmt) : Bool := clsF f || clsI f
/-- The accumulation format (R89). -/
def accFmt (f : Fmt) : Fmt := if isFloat f then .fp32 else .int32

/-- One addition or maximum in the accumulation format (R54, R89 to R91). -/
def redOp (isMax : Bool) (acc : Fmt) (x y : Nat) : Nat :=
  match acc, isMax with
  | .fp32, false => fadd .fp32 x y
  | .fp32, true => fmax .fp32 x y
  | _, false => (x + y) % 2 ^ 32
  | _, true => if toSigned 32 x ≤ toSigned 32 y then y else x

/-- The identity of an operation (R90). -/
def redId (isMax : Bool) (acc : Fmt) : Nat :=
  match acc, isMax with
  | .fp32, false => 0x80000000
  | .fp32, true => 0xFF800000
  | _, false => 0
  | _, true => 0x80000000

/-- Neighbours combined: one level of the tree of R54. -/
def pairUp (h : Nat → Nat → Nat) : List Nat → List Nat
  | a :: b :: t => h a b :: pairUp h t
  | l => l

/-- The tree of R54 with the given number of levels. -/
def treeFold (h : Nat → Nat → Nat) : Nat → List Nat → Nat
  | 0, l => l.headD 0
  | n + 1, l => treeFold h n (pairUp h l)

/-- The leaf of a lane: its elements in the accumulation format, in a tree of their own (R89). -/
def leafOf (isMax : Bool) (f : Fmt) (x : Lane) : Nat :=
  let acc := accFmt f
  let conv (k : Nat) : Nat :=
    if isFloat f then encF .fp32 0 (decF f (elem f x k)) else wrapI 32 (ival f (elem f x k))
  treeFold (redOp isMax acc) 2 ((List.range (perLane f)).map conv)

/-- The leaf of lane (r, c), the identity where m7 excludes it (R90). -/
def redLeaf (isMax : Bool) (f : Fmt) (m : BitVec 1024) (a : NMap Lane) (r c : Nat) : Nat :=
  if m.getLsbD (64 * r + c) then redId isMax (accFmt f) else leafOf isMax f (at2 a r c)

/-- The root of row r (R54). -/
def rowRoot (isMax : Bool) (f : Fmt) (m : BitVec 1024) (a : NMap Lane) (r : Nat) : Nat :=
  treeFold (redOp isMax (accFmt f)) 6 ((List.range 64).map (redLeaf isMax f m a r))
/-- The root of column c (R54). -/
def colRoot (isMax : Bool) (f : Fmt) (m : BitVec 1024) (a : NMap Lane) (c : Nat) : Nat :=
  treeFold (redOp isMax (accFmt f)) 4 ((List.range 16).map (fun r => redLeaf isMax f m a r c))

/-- Leaves folded in ascending position up to position n (R92). -/
def scanTo (h : Nat → Nat → Nat) (leaf : Nat → Nat) : Nat → Nat
  | 0 => leaf 0
  | n + 1 => h (scanTo h leaf n) (leaf (n + 1))

/-- The format red works in: a lone untagged broadcast is FP32 (R89). -/
def redIn (a : VVal) : Fmt := if a.unt then .fp32 else a.tag

/-- A trigger of red that lands in red.q (R88, R89). -/
def redTrig (lat : Nat) (h : Fmt → BitVec 1024 → NMap Lane → Nat → Nat → Nat) (g : BitVec 4) (src : BitVec 10)
    (s : State) : Host.Outcome State Fault Refusal :=
  trigger s g src [chk (!redFmt (redIn (s.cx.aV 7))) s.cls5] [] (fun t =>
    let a := t.cx.aV 7
    let f := redIn a
    t.land lat 0x08E (.v ⟨lanesOf 1024 (fun k => BitVec.ofNat 32 (h f (t.cx.mreg 7) a.lanes (k / 64) (k % 64))), accFmt f, false⟩))

/-- A trigger of red that accumulates into a partial-sum latch at +5 (R91). -/
def redPs (isMax : Bool) (g : BitVec 4) (src : BitVec 10) (n : BitVec 2) (s : State) :
    Host.Outcome State Fault Refusal :=
  trigger s g src [chk (!redFmt (redIn (s.cx.aV 7))) s.cls5] [] (fun t =>
    let a := t.cx.aV 7
    let f := redIn a
    t.fly 5 (.psAcc n.toNat isMax (accFmt f)
      (lanesOf 64 (fun c => BitVec.ofNat 32 (colRoot isMax f (t.cx.mreg 7) a.lanes c)))))

/-- red.csum.psN (R88, R91). -/
def execRedCsumPs (g : BitVec 4) (src : BitVec 10) (n : BitVec 2) (s : State) : Host.Outcome State Fault Refusal := redPs false g src n s

/-- red.cmax.psN (R88, R91). -/
def execRedCmaxPs (g : BitVec 4) (src : BitVec 10) (n : BitVec 2) (s : State) : Host.Outcome State Fault Refusal := redPs true g src n s

/-- red.rsum: the sum of the row in every lane (R88). -/
def execRedRsum (g : BitVec 4) (src : BitVec 10) (s : State) : Host.Outcome State Fault Refusal :=
  redTrig 8 (fun f m a r _ => rowRoot false f m a r) g src s

/-- red.rmax: the maximum of the row in every lane (R88). -/
def execRedRmax (g : BitVec 4) (src : BitVec 10) (s : State) : Host.Outcome State Fault Refusal :=
  redTrig 8 (fun f m a r _ => rowRoot true f m a r) g src s

/-- red.rscan: prefix sums along the row (R92). -/
def execRedRscan (g : BitVec 4) (src : BitVec 10) (s : State) : Host.Outcome State Fault Refusal :=
  redTrig 8 (fun f m a r c => scanTo (redOp false (accFmt f)) (redLeaf false f m a r) c) g src s

/-- red.cscan: prefix sums down the column (R92). -/
def execRedCscan (g : BitVec 4) (src : BitVec 10) (s : State) : Host.Outcome State Fault Refusal :=
  redTrig 5 (fun f m a r c => scanTo (redOp false (accFmt f)) (fun i => redLeaf false f m a i c) r) g src s

/-- red.csum: the sum of the column in every lane (R88). -/
def execRedCsum (g : BitVec 4) (src : BitVec 10) (s : State) : Host.Outcome State Fault Refusal :=
  redTrig 5 (fun f m a _ c => colRoot false f m a c) g src s

/-- red.cmax: the maximum of the column in every lane (R88). -/
def execRedCmax (g : BitVec 4) (src : BitVec 10) (s : State) : Host.Outcome State Fault Refusal :=
  redTrig 5 (fun f m a _ c => colRoot true f m a c) g src s

end Sys2Proof.Machine
end

