-- ==== Sys2Proof/Machine/Memside.lean ====
section
/-! DEFINITION. Commands that the memory side carries out: batched atomics (R211, R212) and near-memory commands (R276 to
R281). -/

namespace Sys2Proof.Machine

/-! ## Batched atomics -/

/-- Record i of a batch may perform: its turn in the store queue, and no lower record on its granule left (R212). -/
def recordReady (s : State) (core : Nat) (k : Cmd) (i : Nat) : Bool :=
  let m := (s.core core).tile
  let va := batchTarget m k i
  !k.away.contains i && s.entryReady k.c k.id va 8 && s.entryReady k.c k.id (k.b.toNat + 8 * i) 8 &&
  s.tileFree core k ((k.ranges.headD (0, 0)).1 + batchRec (fld k.a 20 4) * i) (batchRec (fld k.a 20 4)) &&
  !((List.range i).any (fun j => !k.done.contains j && batchTarget m k j / 8 == va / 8))

/-- A record for another device's memory leaves for it (R257); its answer closes it. -/
def sendRecord (s : State) (core : Nat) (k : Cmd) (i pa : Nat) (b e : Word) : State :=
  match s.launchOf k.task.launch with
  | none => s
  | some l =>
    let dev := s.peerOf k.spid pa
    let p : Packet := ⟨0, [], l.id, homeOf core, l.rank, 0, .record core k.id i (fld k.a 20 4) (pa % 2 ^ 39) b e⟩
    if s.aqAhead k dev then s
    else match s.leave l (core / 96) dev 1 (.pkt p) with
    | none => s
    | some t => t.updCmd core k.id (fun m =>
        if m.done.contains i then m else { m with away := m.away ++ [i], moored := m.moored.filter (· != i), parked := false })

/-- A record's read-modify-write and its returned value, or its failure with a code and a zero returned (R212); one for another
device is sent there (R257). -/
def runRecord (s : State) (core : Nat) (k : Cmd) (i : Nat) : State :=
  let op := fld k.a 20 4
  let m := (s.core core).tile
  let off := (k.ranges.headD (0, 0)).1 + batchRec op * i
  let va := batchTarget m k i
  let bs := batchBytes m k i
  let b : Word := BitVec.ofNat 64 (leAt bs (if op = 10 then 16 else 8) 8)
  let e : Word := BitVec.ofNat 64 (leAt bs 8 8)
  let ret := k.b.toNat + 8 * i
  match s.reach core k.spid ret Need.write with
  | .unmapped => moor s core k i ret
  | .expand => s
  | .noMap => closeSector s core k.id i 4
  | .denied => closeSector (s.fillTlb core k.spid ret) core k.id i 3
  | .at rpa =>
    let fails (code : Nat) : State := closeSector ((s.fillTlb core k.spid ret).putMem rpa (leBytes 8 0)) core k.id i code
    let refused (code : Nat) : State :=
      closeSector (((s.fillTlb core k.spid ret).fillTlb core k.spid va).putMem rpa (leBytes 8 0)) core k.id i code
    if s.asleep rpa then s.holdFor rpa (.record core k.id i)
    else if k.sourceBad (s.core core) i off (batchRec op) then fails 1
    else if va % 8 != 0 then fails 3
    else match s.reach core k.spid va Need.write with
    | .unmapped => moor s core k i va
    | .expand => s
    | .noMap => fails 4
    | .denied => refused 3
    | .at pa =>
      if inHost pa || s.reach core k.spid va Need.read != .at pa then refused 3
      else if s.asleep pa then s.holdFor pa (.record core k.id i)
      else if inPeer pa && !s.admits (396 + homeOf core) core k.spid true then refused 3
      else if inPeer pa then sendRecord ((s.fillTlb core k.spid ret).fillTlb core k.spid va) core k i pa b e
      else if marksHit s.marks pa 8 then refused 1
      else
        let old : Word := BitVec.ofNat 64 (Mem.readLE s.mem pa 8)
        let s1 := ((s.fillTlb core k.spid ret).fillTlb core k.spid va).putMem pa (leBytes 8 (atomic op old b e).toNat)
        closeSector (s1.putMem rpa (leBytes 8 old.toNat)) core k.id i 0

/-- The lock-keeper through which another device's records and stores reach memory here: lock-keeper 0, DESIGN CHOICE, since
R257 says only that it is the home of a core of this device (log 57). -/
def farKeeper : Nat := 0
/-- The old value of a record of another device, and the code it comes to here: the packet engine performs it on this device's
HBM, under its own access table, that of the memory controller and the frame tags (R212, R257, R346, R362); LINK_FAILED where the
way to the stack crosses a failed edge (R356); none while the stack sleeps (R357). -/
def serveRecord (s : State) (spid op pa : Nat) (b e : Word) : Option (State × Nat × Word) :=
  if !inHbm pa || !s.admits (396 + farKeeper) (400 + farKeeper) spid true ||
      !s.admits (targetOf pa) (400 + farKeeper) spid true || (s.tagOf pa).isSome then some (s, 3, 0)
  else if s.cutOff (farKeeper / 6) (stackOf pa / 2) then some (s, 5, 0)
  else if s.asleep pa then none
  else if marksHit s.marks pa 8 then some (s, 1, 0)
  else
    let old : Word := BitVec.ofNat 64 (Mem.readLE s.mem pa 8)
    some (s.putMem pa (leBytes 8 (atomic op old b e).toNat), 0, old)
/-- The answer to a record that was sent away: its returned value is written, and the record is closed; none while its return
tile waits (R212, R257). What the record has left in the other device's memory is known here then (log 42). -/
def endRecord (s : State) (core id i code : Nat) (old : Word) : Option State :=
  match s.findCmd core id with
  | none => some s
  | some k =>
    if !k.away.contains i then some s
    else
      let ret := k.b.toNat + 8 * i
      let op := fld k.a 20 4
      let bs := batchBytes (s.core core).tile k i
      let new := atomic op old (BitVec.ofNat 64 (leAt bs (if op = 10 then 16 else 8) 8)) (BitVec.ofNat 64 (leAt bs 8 8))
      let s1 := s.updCmd core id (fun m => { m with away := m.away.filter (· != i) })
      let seen (s : State) : State := match s.trans core k.spid (batchTarget (s.core core).tile k i) with
        | .at pa _ => if code = 0 ∧ inPeer pa then s.putMem pa (leBytes 8 new.toNat) else s
        | _ => s
      match s.reach core k.spid ret Need.write with
      | .at rpa => if s.asleep rpa then none
        else some (closeSector (((seen s1).fillTlb core k.spid ret).putMem rpa
          (leBytes 8 (if code = 0 then old.toNat else 0))) core id i code)
      | .unmapped | .expand => none
      | .noMap => some (closeSector s1 core id i 4)
      | .denied => some (closeSector (s1.fillTlb core k.spid ret) core id i 3)

/-- Where a record's returned value goes, as a physical address. -/
def State.returnPlace (s : State) (core id i : Nat) : Nat :=
  match s.findCmd core id with
  | some k => (match s.reach core k.spid (k.b.toNat + 8 * i) Need.write with | .at pa => pa | _ => 2 ^ 45)
  | none => 2 ^ 45

/-- BATCH_RECORD_PERFORM (R212). A record behind a moored entry on one of its pages joins it (R176). -/
def execBatchRecordPerform (core id rec : Nat) (s : State) : Host.Outcome State Fault Refusal :=
  match (s.core core).cmds.find? (fun k => k.id == id) with
  | none => .next s
  | some k =>
    .next (if !(k.port == 0x32D && decide (rec < k.nsec) && !k.done.contains rec) then s
      else if recordReady s core k rec then runRecord s core k rec
      else if s.joinsMoor k [batchTarget (s.core core).tile k rec / 65536, (k.b.toNat + 8 * rec) / 65536] then enterMoor s core k rec
      else s)

/-- Bytes of HBM, none where the number is 0, lie in part in a marked sector: what stands there cannot be known. -/
def State.spoiled (s : State) (core spid va n : Nat) : Bool :=
  n != 0 && (match s.reach core spid va Need.write with | .at pa => inHbm pa && marksHit s.marks pa n | _ => false)
/-- Some byte of a granule of the range that the range does not write stands in a marked sector, so that the granule's new
contents cannot be known (R265, R268). -/
def edgeMarked (s : State) (core spid va n w : Nat) : Bool :=
  w != 8 && (s.spoiled core spid (va / 8 * 8) (va % 8) || s.spoiled core spid (va + n) ((8 - (va + n) % 8) % 8))

/-! ## Near-memory commands -/

/-- Whether a kind reads and writes stream i (R273). -/
def nmUse (k : NmKind) (i : Nat) : Bool × Bool :=
  match k with
  | .fuse => if i = 0 ∨ i = 2 then (true, true) else if i = 1 then (true, false) else (false, true)
  | .sadd => if i = 0 then (false, true) else (true, false)
  | .red => if i = 0 then (false, true) else (true, false)
  | .fill => (false, true)
  | .copy => if i = 0 then (false, true) else (true, false)

/-- What a range of a stream meets: a page to be mapped, a wait, a sleeping stack, or a failure code of R280 (0: none). -/
inductive NmMeet where
  | unmapped (va : Nat)
  | wait
  | asleep (pa : Nat)
  | code (n : Nat)
  deriving DecidableEq, Repr

/-- A stream's access to its bytes `va` to `va + n − 1`; `w` is whether the command writes them, `r` whether it reads
them, and `src` whether a mark there is code 1 and not 2 (R278, R280). -/
def nmMeet (s : State) (core spid va n : Nat) (r w src : Bool) : NmMeet :=
  let one (p : Nat) : NmMeet :=
    let a := s.reach core spid p (if w then Need.write else Need.read)
    let b := if w && r then s.reach core spid p Need.read else a
    match a with
    | .unmapped => .unmapped p
    | .expand => .wait
    | .noMap => .code 4
    | .denied => .code 3
    | .at pa => if !inHbm pa || b != a then .code 3 else if s.asleep pa then .asleep pa else .code 0
  let l := (pagesOf va n).map one
  let bad := l.filterMap (fun e => match e with | .code 0 => none | .code c => some c | _ => none)
  match l.find? (fun e => match e with | .code _ => false | _ => true) with
  | some e => e
  | none =>
    let mark := r && (List.range n).any (fun i => match s.reach core spid (va + i) Need.read with
        | .at pa => inHbm pa && marksHit s.marks pa 1 | _ => false)
    let codes := bad ++ (if mark then [if src then 1 else 2] else [])
    if codes != [] then .code (codes.foldl min 7) else .code 0

/-- Bytes of granules at the ends of a destination stream that the command does not write, for the block that writes the rest of
them: address and number. -/
def nmEdges (k : Cmd) (i lo hi : Nat) : List (Nat × Nat) :=
  let a := nmAddr k.info i
  let z := a + nmCount k.info * nmW (nmKind k.port) k.info i
  (if lo = 0 then [(a / 8 * 8, a % 8)] else []) ++ (if nmCount k.info ≤ hi then [(z, (8 - z % 8) % 8)] else [])
/-- The write of a destination stream's block fails: a granule at an end of the stream keeps bytes of a marked sector (R280). -/
def nmSpoiled (s : State) (core : Nat) (k : Cmd) (i lo hi : Nat) : Bool :=
  (nmUse (nmKind k.port) i).2 && (nmEdges k i lo hi).any (fun e => s.spoiled core k.spid e.1 e.2)
/-- A range meets a failure of its write beside what it meets already: the lower code of the two (R280). -/
def NmMeet.orFail (m : NmMeet) (bad : Bool) : NmMeet :=
  match m with
  | .code c => .code (if bad ∧ (c = 0 ∨ 2 < c) then 2 else c)
  | m => m

/-- Every stream range of a block, with its uses (R280): the block's indices are lo to hi − 1. -/
def nmBlock (s : State) (core : Nat) (k : Cmd) (lo hi : Nat) (last : Bool) : List NmMeet :=
  let kind := nmKind k.port
  (nmUsed kind k.info).filterMap (fun i =>
    let u := nmUse kind i
    let src := i == 1 || (kind == .sadd && i == 2)
    if kind = .red ∧ i = 0 then
      (if last then some (nmMeet s core k.spid (nmAddr k.info 0) 8 u.1 u.2 src) else none)
    else some ((nmMeet s core k.spid (nmAddr k.info i + lo * nmW kind k.info i) ((hi - lo) * nmW kind k.info i) u.1 u.2 src).orFail
      (nmSpoiled s core k i lo hi)))

/-- The first address of a block's streams, in stream order, whose byte is marked; the first stream's where none is. -/
def nmMarked (s : State) (core : Nat) (k : Cmd) (lo hi : Nat) : Nat :=
  let kind := nmKind k.port
  let l := ((nmUsed kind k.info).filter (fun i => (nmUse kind i).1)).flatMap (fun i =>
    (List.range ((hi - lo) * nmW kind k.info i)).map (fun j => nmAddr k.info i + lo * nmW kind k.info i + j)) ++
    ((nmUsed kind k.info).filter (fun i => (nmUse kind i).2 && kind != .red)).flatMap (fun i =>
      (nmEdges k i lo hi).flatMap (fun e => (List.range e.2).map (fun j => e.1 + j)))
  (l.find? (fun va => match s.trans core k.spid va with | .at pa _ => marksHit s.marks pa 1 | _ => false)).getD (nmAddr k.info 0)

/-- Physical address of a virtual one that translates. -/
def State.paOf (s : State) (core spid va : Nat) : Nat := match s.trans core spid va with | .at pa _ => pa | _ => 0
/-- The code of element i of stream t. -/
def nmGet (s : State) (core : Nat) (k : Cmd) (t i : Nat) : Nat :=
  let w := nmW (nmKind k.port) k.info t
  Mem.readLE s.mem (s.paOf core k.spid (nmAddr k.info t + i * w)) w
/-- Element i of stream t written. -/
def nmPut (s : State) (core : Nat) (k : Cmd) (t i v : Nat) : State :=
  let w := nmW (nmKind k.port) k.info t
  s.putMem (s.paOf core k.spid (nmAddr k.info t + i * w)) (leBytes w v)
/-- Format of stream t. -/
def nmF (k : Cmd) (t : Nat) : Fmt := Fmt.ofCodeRaw (nmFmt k.info t)

/-- One element of fuse, sadd, fill or copy (R276). -/
def nmElem (s : State) (core : Nat) (k : Cmd) (i : Nat) : State :=
  let mod := nmMod k.info
  let c (n : Nat) : FV := decF .fp32 (nmC k.info n)
  let x (t : Nat) : FV := decF (nmF k t) (nmGet s core k t i)
  match nmKind k.port with
  | .fuse =>
    let m1 := encF (nmF k 2) mod (sumRM mod [(c 1).mul (x 2), x 1])
    let u := encF .fp32 0 (sumFV [(c 2).mul (x 0), decF (nmF k 2) m1])
    let w1 := encF (nmF k 0) mod (sumRM mod [x 0, ((c 0).mul (decF .fp32 u)).negate])
    let s1 := nmPut (nmPut s core k 2 i m1) core k 0 i w1
    if (nmUsed .fuse k.info).contains 3 then nmPut s1 core k 3 i (encF (nmF k 3) mod (decF (nmF k 0) w1)) else s1
  | .sadd => nmPut s core k 0 i (encF (nmF k 0) mod (sumRM mod [(c 0).mul (x 1), x 2]))
  | .fill => nmPut s core k 0 i ((nmC k.info 1 * 2 ^ 32 + nmC k.info 0) % 2 ^ (8 * nmW .fill k.info 0))
  | .copy => nmPut s core k 0 i (nmGet s core k 1 i)
  | .red => s

/-- The combining operation of a reduction and its identity (R277). -/
def nmOplus (op : Nat) (a b : Nat) : Nat := if op = 1 then fmax .fp32 a b else if op = 2 then fmin .fp32 a b else fadd .fp32 a b
/-- See `nmOplus`. -/
def nmIdent (op : Nat) : Nat := if op = 1 then 0xFF800000 else if op = 2 then 0x7F800000 else 0x80000000

/-- T(b) of a reduction (R277). -/
def nmTree (s : State) (core : Nat) (k : Cmd) (b : Nat) : Nat :=
  let op := nmOp k.info
  treeFold (nmOplus op) 4 ((List.range 16).map (fun j =>
    if nmCount k.info ≤ 16 * b + j then nmIdent op
    else
      let x := decF (nmF k 1) (nmGet s core k 1 (16 * b + j))
      encF .fp32 0 (if op = 3 then x.mul x else x)))

/-- The accumulated value of a reduction stands above the record, in bits 543:512. -/
def nmAcc (k : Cmd) : Nat := if k.prog = 0 then nmIdent (nmOp k.info) else fld k.info 512 32
/-- See `nmAcc`. -/
def nmSetAcc (m : BitVec 1024) (v : Nat) : BitVec 1024 := BitVec.ofNat 1024 (m.toNat % 2 ^ 512 + v * 2 ^ 512)

/-- The pages that the command's next block needs at once. -/
def nmPages (k : Cmd) : List Nat :=
  let kind := nmKind k.port
  let lo := 16 * k.prog
  let hi := min (nmCount k.info) (lo + 16)
  (nmUsed kind k.info).flatMap (fun i =>
    let r : Nat × Nat := if kind = .red ∧ i = 0 then (nmAddr k.info 0, if nmCount k.info ≤ hi then 8 else 0)
      else (nmAddr k.info i + lo * nmW kind k.info i, (hi - lo) * nmW kind k.info i)
    if r.2 = 0 then [] else pagesOf r.1 r.2)
/-- The translations of a block are used: A is set, and the buffers are filled (R335, R336). -/
def nmFill (s : State) (core : Nat) (k : Cmd) : State := (nmPages k).foldl (fun s p => s.fillTlb core k.spid p) s

/-- The next block of 16 indices of a command: it waits, fails with FIRST its number, or is written; after the last one
the completion word follows (R276 to R280). -/
def runNear (s : State) (core : Nat) (k : Cmd) : State :=
  let b := k.prog
  let n := nmCount k.info
  let hi := min n (16 * b + 16)
  let last := decide (n ≤ hi)
  let l := nmBlock s core k (16 * b) hi last
  match l.find? (fun e => match e with | .code _ => false | _ => true) with
  | some (.unmapped va) => moor s core k 0 va
  | some (.asleep pa) => s.holdFor pa (.near core k.id)
  | some _ => s
  | none =>
    let bad := l.filterMap (fun e => match e with | .code 0 => none | .code c => some c | _ => none)
    if bad != [] then
      let c := bad.foldl min 7
      let s1 := if c ≤ 2 then s.event 0x01 1 (BitVec.ofNat 64 (nmMarked s core k (16 * b) hi)) k.task.launch core else s
      finish (nmFill s1 core k) core k.id c b
    else
      let s0 := (nmFill (s.updCmd core k.id (fun m => { m with moored := [], parked := false, prog := b + 1 })) core k).entryKind
        k.c k.id .nm
      if nmKind k.port = .red then
        let acc := nmOplus (nmOp k.info) (nmAcc k) (nmTree s core k b)
        if last then finish (s0.putMem (s.paOf core k.spid (nmAddr k.info 0)) (leBytes 8 acc)) core k.id 0 0
        else s0.updCmd core k.id (fun m => { m with info := nmSetAcc m.info acc })
      else
        let s1 := (List.range (hi - 16 * b)).foldl (fun s j => nmElem s core k (16 * b + j)) s0
        if last then finish s1 core k.id 0 0 else s1

/-- The command may go on: older entries of its store queue have performed on its granules (R279). -/
def nearReady (s : State) (k : Cmd) : Bool := k.memRanges.all (fun r => s.entryReady k.c k.id r.1 r.2)

/-- NEAR_MEMORY_EXECUTE: a base-die engine works on an accepted command, one block of 16 indices at a time; a command of
a saved task runs on (R279, R281), and one behind a moored entry on one of its pages joins it (R176). -/
def execNearMemoryExecute (core id : Nat) (s : State) : Host.Outcome State Fault Refusal :=
  match s.findCmd core id with
  | none => .next s
  | some k =>
    .next (if !(decide (0x358 ≤ k.port) && decide (k.port ≤ 0x35C) && k.fin.isNone && k.ended.isNone) then s
      else if nearReady s k then runNear s core k
      else if s.joinsMoor k (k.memRanges.flatMap (fun r => (pagesOf r.1 r.2).map (fun va => va / 65536))) then enterMoor s core k 0
      else s)

end Sys2Proof.Machine
end

