-- ==== Sys2Proof/Machine/Pages.lean ====
section
/-! DEFINITION. Page requests (R338), the mooring queue's replay (R318), tiers and migration (R339 to R341), and frame
exhaustion (R342). -/

namespace Sys2Proof.Machine

/-! ## Page tables as the kernel and the engines write them -/

/-- The entries of the table at a physical address that are not zero: index and entry. -/
def State.tableAt (s : State) (base : Nat) : List (Nat × Word) :=
  ((s.mem.filter (fun e => decide (base ≤ e.1) && decide (e.1 < base + 32768))).map (fun e => (e.1 - base) / 8)).eraseDups.map
    (fun i => (i, s.pteAt (base + 8 * i)))

/-- A leaf of a space's tables: where its entry stands, the entry, the page's virtual address, and whether it is large. -/
structure Leaf where
  at0 : Nat
  e : Word
  va : Nat
  large : Bool
  deriving DecidableEq, Repr

/-- Every leaf of a space. -/
def State.leaves (s : State) (spid : Nat) : List Leaf :=
  (s.tableAt (spRoot (s.space spid))).flatMap (fun e1 =>
    if !bit e1.2 0 || pteBad e1.2 1 then [] else
    (s.tableAt (ptePa e1.2)).flatMap (fun e2 =>
      let va := e1.1 * 2 ^ 40 + e2.1 * 2 ^ 28
      if !bit e2.2 0 || pteBad e2.2 2 then []
      else if bit e2.2 1 then [⟨ptePa e1.2 + 8 * e2.1, e2.2, va, true⟩]
      else (s.tableAt (ptePa e2.2)).filterMap (fun e3 =>
        if !bit e3.2 0 || pteBad e3.2 3 then none
        else some ⟨ptePa e2.2 + 8 * e3.1, e3.2, va + e3.1 * 2 ^ 16, false⟩)))

/-- The tables of a space: those of the third level, those of the second, and the root. -/
def State.tables (s : State) (spid : Nat) : List Nat :=
  if !bit (s.space spid) 0 then [] else
  let root := spRoot (s.space spid)
  let t2 := (s.tableAt root).filterMap (fun e => if bit e.2 0 && !pteBad e.2 1 then some (ptePa e.2) else none)
  t2.flatMap (fun b => (s.tableAt b).filterMap (fun e =>
    if bit e.2 0 && !pteBad e.2 2 && !bit e.2 1 then some (ptePa e.2) else none)) ++ t2 ++ [root]
/-- The first sleeping place among those that the kernel reads or writes as it changes pages of some spaces: their tables, and the
frame tag table (R357). -/
def State.kernelAsleep (s : State) (spids : List Nat) : Option Nat :=
  if s.selfRef = 0 then none else s.firstAsleep ((match s.tagPlace 0 with | some a => [a, a + 2 ^ 24 - 1] | none => []) ++ spids.flatMap s.tables)

/-- The device writes an 8-byte word of physical memory. -/
def State.putWord (s : State) (pa : Nat) (w : Word) : State := s.putMem pa (leBytes 8 w.toNat)

/-- Frame tag of a frame set (R360): the kernel's store to the table, which a sleeping stack holds (R357). -/
def State.setTag (s : State) (frame : Nat) (t : BitVec 16) : State :=
  match s.tagPlace frame with | some a => s.sendMem a (leBytes 2 t.toNat) | none => s
/-- The tags of n bytes of HBM are cleared. -/
def State.clearTags (s : State) (base n : Nat) : State :=
  match s.tagPlace base with | some a => s.sendMem a (List.replicate (2 * (n / 65536)) 0xFF) | none => s
/-- FTTBASE names the table: the kernel fills it with the reset image, or carries the entries along from where it stood, with
ordinary stores of the system space (R360, R376, log 53); a sleeping stack that holds either place holds the write too (R357). -/
def State.placeTable (s : State) (base : Word) : State :=
  let ends (a : Nat) : List Nat := [a, a + 2 ^ 24 - 1]
  match s.firstAsleep (ends base.toNat ++ (match s.tagPlace 0 with | some a => ends a | none => [])) with
  | some pa => s.holdFor pa (.table base)
  | none =>
    let old := match s.tagPlace 0 with | some a => Mem.read s.mem a (2 ^ 24) | none => List.replicate (2 ^ 24) 0xFF
    ({ s with mr := NMap.put s.mr 0x360 base }).putMem base.toNat old

/-! ## Compression, expansion, migration (R339 to R341) -/

/-- The n-th descriptor name that no compressed page carries, and that the entry of a page of its size can hold (R334,
R340). -/
def State.freeDesc (s : State) (large : Bool) : Nat :=
  let d := (Config.descriptor s.ndesc).toNat
  let name (i : Nat) : Nat := if large then (d + i) % 2 ^ 18 * 8192 else (d + i) % 2 ^ 31
  ((List.range (s.tier.length + 1)).map name).find? (fun n => !s.tier.any (fun e => e.1 == n)) |>.getD (name 0)

/-- Marks of n bytes of HBM, at line offsets in them. -/
def pageMarks (m : NMap (BitVec 64)) (base n : Nat) : NMap (BitVec 64) :=
  (m.filter (fun (e : Nat × BitVec 64) => decide (base / 64 ≤ e.1) && decide (e.1 < base / 64 + n / 64))).map
    (fun e => (e.1 - base / 64, e.2))
/-- The bytes that are listed of n bytes of HBM, at offsets in them. -/
def pageMem (m : Mem) (base n : Nat) : Mem :=
  (m.filter (fun (e : Nat × Byte) => decide (base ≤ e.1) && decide (e.1 < base + n))).map (fun e => (e.1 - base, e.2))
/-- The tags of the frames of n bytes of HBM, by their place in them, of those that have one. -/
def State.pageTags (s : State) (base n : Nat) : NMap (BitVec 16) :=
  (List.range (n / 65536)).filterMap (fun i =>
    let t := s.tagWord (base + 65536 * i)
    if t = 0xFFFF then none else some (i, t))
/-- A page of n bytes emptied of bytes, marks and tags. -/
def State.emptyPage (s : State) (base n : Nat) : State :=
  ({ s with
    mem := Mem.clear s.mem base n
    marks := s.marks.filter (fun e => decide (e.1 < base / 64) || decide (base / 64 + n / 64 ≤ e.1)) }).clearTags base n
/-- A frame emptied of bytes, marks and tag. -/
def State.emptyFrame (s : State) (frame : Nat) : State := s.emptyPage frame 65536
/-- A frame that goes back to a pool is emptied; one in a sleeping stack, which takes no access, when it is given out again
(R357, log 54). -/
def State.wipeFrame (s : State) (frame : Nat) : State := if s.asleep frame then s else s.emptyFrame frame
/-- A page of n bytes filled from a compressed page or from another place. -/
def State.fillPage (s : State) (base n : Nat) (p : TierPage) : State :=
  let s1 := s.emptyPage base n
  let s2 := { s1 with
    mem := s1.mem.filter (fun (e : Nat × Byte) => decide (e.1 < base)) ++
      (p.bytes.filter (fun (e : Nat × Byte) => decide (e.1 < n))).map (fun (e : Nat × Byte) => (base + e.1, e.2)) ++
      s1.mem.filter (fun (e : Nat × Byte) => decide (base + n ≤ e.1))
    marks := p.marks.foldl (fun m (e : Nat × BitVec 64) => NMap.put m (base / 64 + e.1) e.2) s1.marks }
  p.tags.foldl (fun s (e : Nat × BitVec 16) => s.setTag (base + 65536 * e.1) e.2) s2
/-- The page that stands in n bytes of HBM. -/
def State.pageIn (s : State) (base n : Nat) : TierPage := ⟨pageMem s.mem base n, pageMarks s.marks base n, s.pageTags base n⟩
/-- The frames of n bytes. -/
def framesOf (base n : Nat) : List Nat := (List.range (n / 65536)).map (fun i => base + 65536 * i)
/-- Frames go back to a pool. -/
def State.giveFrames (s : State) (part : Nat) (l : List Nat) : State := l.foldl (fun s f => s.giveFrame part f) s

/-- Compression of the page whose leaf stands at an address (R340): refused for PIN = 1, TIER = 1, or a page outside HBM; a page in
a sleeping stack cannot be read now (R357). -/
def compress (s : State) (spid a va : Nat) (large : Bool) : Option State :=
  let e := s.pteAt a
  let n := pageBytes large
  if bit e 7 || bit e 5 || !inHbm (ptePa e) || s.asleep (ptePa e) then none
  else
    let f := ptePa e
    let d := s.freeDesc large
    let s1 := s.shootDown spid (some va)
    let s2 := { s1 with tier := NMap.put s1.tier d (s1.pageIn f n), ndesc := s1.ndesc + 1 }
    let s3 := s2.putWord a (BitVec.ofNat 64 (e.toNat % 32768 + 32 + d * 32768))
    some ((s3.emptyPage f n).giveFrames (spPart (s.space spid)) (framesOf f n))

/-- Spaces of a partition. -/
def State.spacesOf (s : State) (part : Nat) : List Nat :=
  (s.spaces.filter (fun e => bit e.2 0 && spPart e.2 == part)).map (fun e => e.1)

/-- The leaves that reclaiming walks over, with their spaces, in ascending physical address (R342). -/
def State.reclaimList (s : State) (part : Nat) : List (Nat × Leaf) :=
  ((s.spacesOf part).flatMap (fun sp => ((s.leaves sp).filter (fun l => !bit l.e 5)).map (fun l => (sp, l)))).mergeSort
    (fun a b => decide (ptePa a.2.e ≤ ptePa b.2.e))

/-- The first run of n frames of a list that stand together, at a multiple of their size. -/
def firstRun (l : List Nat) (n : Nat) : Option Nat :=
  if n = 1 then l.head? else l.find? (fun f => f % (65536 * n) == 0 && (List.range n).all (fun i => l.contains (f + 65536 * i)))
/-- The run of n frames that a pool gives: one in stacks that are awake, since a sleeping stack cannot be written (R357, log 54). -/
def State.findRun (s : State) (part n : Nat) : Option Nat := firstRun ((s.pool part).filter (fun f => !s.asleep f)) n
/-- A run of n frames leaves the pool. -/
def State.dropRun (s : State) (part f n : Nat) : State :=
  { s with pools := NMap.put s.pools part ((s.pool part).filter (fun g => decide (g < f) || decide (f + 65536 * n ≤ g))) }

/-- Why the kernel or an engine gets no frame: a stack that it would have to read or write sleeps (R357), or no frame can be found,
with the state after the search (R342). -/
inductive Stuck where
  | wait (pa : Nat)
  | spent (s : State)
  deriving DecidableEq, Repr

/-- Frames run out (R342): until n frames are free, the pages of leaves with A = 0 are compressed, but for pinned ones and
those that the faulting access needs; a leaf that is passed over loses A and is shot down. The search ends at a page in a
sleeping stack, whose address stands beside the state (R357). -/
def reclaim (s : State) (part n : Nat) (keep : List (Nat × Nat)) : List (Nat × Leaf) → State × Option Nat
  | [] => (s, none)
  | (sp, l) :: t =>
    if (s.findRun part n).isSome then (s, none)
    else
      let e := s.pteAt l.at0
      let kept := keep.any (fun k => k.1 == sp && meets (k.2 * 65536) 65536 l.va (pageBytes l.large))
      let pass (u : State) : State :=
        if bit (u.pteAt l.at0) 6 then (u.putWord l.at0 (u.pteAt l.at0 &&& ~~~64)).shootDown sp (some l.va) else u
      if kept || bit e 6 || bit e 7 then reclaim (pass s) part n keep t
      else if s.asleep (ptePa e) then (s, some (ptePa e))
      else reclaim ((compress s sp l.at0 l.va l.large).getD (pass s)) part n keep t

/-- A run of n frames of a partition's pool, and the state without it, reclaiming where the pool has none (R342). With free frames
only in sleeping stacks, or tables or pages to be read there, the search waits, and nothing has changed. -/
def needRun (s : State) (part n : Nat) (keep : List (Nat × Nat)) : Except Stuck (Nat × State) :=
  match s.findRun part n, firstRun (s.pool part) n, s.kernelAsleep (s.spacesOf part) with
  | some f, _, _ => .ok (f, s.dropRun part f n)
  | none, some f, _ => .error (.wait ((s.firstAsleep (framesOf f (65536 * n))).getD f))
  | none, none, some pa => .error (.wait pa)
  | none, none, none =>
    let r := reclaim s part n keep (s.reclaimList part)
    match r.2, r.1.findRun part n with
    | some pa, _ => .error (.wait pa)
    | none, some f => .ok (f, r.1.dropRun part f n)
    | none, none => .error (.spent r.1)
/-- A frame of a partition's pool. -/
def needFrame (s : State) (part : Nat) (keep : List (Nat × Nat)) : Except Stuck (Nat × State) := needRun s part 1 keep

/-! ## The accesses that wait -/

/-- The pages that each waiting access of the device needs at once: master, space, addresses (R338, R339, R342). -/
def State.needs (s : State) : List (Nat × Nat × List Nat) :=
  s.ctxs.flatMap (fun e =>
    let x := e.2
    (x.snap.filterMap (fun f => match f.item with
        | .berth a w .absent _ => some (pagesOf a.toNat (berthSize w))
        | _ => none) ++
      (match x.form with | .need a => [[a.toNat]] | _ => []) ++
      (match x.task with
       | some t => if x.stat = .staging then (match s.launchOf t.launch with
           | some l => (match (l.inputsOf t.task)[x.staged]? with
             | some i => [pagesOf (fld i 64 64) (max 1 (fld i 32 32))]
             | none => [])
           | none => []) else []
       | none => [])).map (fun l => (e.1 / 4, x.spid, l))) ++
  s.allCmds.flatMap (fun k =>
    let m := (s.core (k.c / 4)).tile
    (if k.port = 0x32D then k.left.map (fun i => [batchTarget m k i, k.b.toNat + 8 * i])
      else if 0x340 ≤ k.port ∧ k.port ≤ 0x342 then k.left.map (fun i => [k.a.toNat + 64 * i])
      else if 0x358 ≤ k.port ∧ k.port ≤ 0x35C then [nmPages k]
      else (s.cmdRanges k).flatMap (fun r => (pagesOf r.1 r.2).map (fun p => [p]))).map (fun l => (k.c / 4, k.spid, l))) ++
  (s.packets ++ s.keepers.flatMap (fun e => e.2.buf)).filterMap (fun p => if isBlock p then (s.blkInto p).map (fun r =>
      let a := blkRange r.2.info p
      (r.1, r.2.spid, pagesOf a.1 (max 1 a.2))) else none) ++
  s.wharfs.flatMap (fun e => (e.2.stores.filter (fun a => fld a.info 0 4 == 3)).map (fun a => (a.c / 4, a.spid, [fld a.info 128 64]))) ++
  (s.portQ.take 1).map (fun q => (425, q.space, pagesOf q.span.1 (max 1 q.span.2)))

/-- The pages that the accesses waiting on a page need (R342). -/
def State.keeps (s : State) (spid page : Nat) : List (Nat × Nat) :=
  (spid, page) :: (s.needs.filter (fun e => e.2.1 == spid && e.2.2.any (fun va => va / 65536 == page))).flatMap (fun e =>
    e.2.2.map (fun va => (spid, va / 65536)))
/-- Compressed pages that something waits for: space and address (R339). -/
def waitedFor (s : State) : List (Nat × Nat) :=
  s.needs.flatMap (fun e => (e.2.2.filter (fun va => s.trans e.1 e.2.1 va == .tier)).map (fun va => (e.2.1, va)))

/-- The berth has its data: nothing of it waits or is to be reissued. -/
def BerthData.given : BerthData → Bool
  | .absent | .again => false
  | .data _ => true
  | .fault cause _ _ => cause == 0x10
/-- Berths of a space that wait on bytes of it, or will again once a fault that they meet before has been taken (R137). -/
def berthsOn (x : Ctx) (spid va n : Nat) : List Nat :=
  if x.spid != spid then [] else x.snap.filterMap (fun f => match f.item with
    | .berth a w r _ => if !r.given && meets a.toNat (berthSize w) va n then some f.fid else none
    | _ => none)

/-- A berth meets something other than the page of n bytes at `base` that cannot be mapped: it waits for a frame for its expansion,
or first takes a fault that it meets elsewhere (R137). -/
def State.berthElse (s : State) (master spid base n : Nat) (i : Item) : Bool :=
  let here (cause : BitVec 8) (p : Word) : Bool := cause == 0x08 && decide (base ≤ p.toNat) && decide (p.toNat < base + n)
  match i with
  | .berth _ _ (.fault cause p _) _ => !here cause p
  | .berth a w _ _ => (match s.berthAnswer master spid a.toNat (berthSize w) with | .fault cause p _ => !here cause p | _ => true)
  | _ => false
/-- No frame can be found for an access of a space to a page of n bytes (R342): a berth waiting on the page's expansion takes
FRAME_EXHAUSTED at its landing, after a LOAD_FAULT or ACCESS_DENIED that it meets elsewhere (R137), and the kernel aborts the launch
then; with no such berth, or where the page was to be mapped for one, the launch is aborted at once. -/
def exhausted (s : State) (spid va n : Nat) : State :=
  let base := va / n * n
  let hit := s.ctxs.any (fun e => (berthsOn e.2 spid base n).any (fun fid =>
    e.2.snap.any (fun f => f.fid == fid && s.berthElse (e.1 / 4) spid base n f.item)))
  let s1 := { s with ctxs := s.ctxs.map (fun e =>
    (e.1, (berthsOn e.2 spid base n).foldl (fun x fid =>
      match x.snap.find? (fun f => f.fid == fid) with
      | some f => (match f.item with
        | .berth a w .absent _ => (match s.berthAnswer (e.1 / 4) spid a.toNat (berthSize w) with
          | .fault _ _ _ => x
          | _ => x.putReply fid (if x.stat = .ready then .fault 0x13 (BitVec.ofNat 64 (max a.toNat base)) [] else .again))
        | _ => x)
      | none => x) e.2)) }
  if hit then s1
  else match s1.launches.find? (fun l => l.spid == spid && l.stmt == 0) with
    | some l => s1.updLaunch l.id (fun l => (l.taint (2 ^ 32 - 1, 0, 0x13, 0)).abort)
    | none => s1

/-- PAGE_COMPRESSION: a page moves into the compressed region at the kernel's request (R340); a sleeping stack holds it (R357). -/
def execPageCompression (spid : Nat) (va : Word) (s : State) : Host.Outcome State Fault Refusal :=
  match s.walk spid va.toNat with
  | .asleep pa => .next (s.holdFor pa (.compress spid va))
  | .leaf a e large =>
    .next (if bit e 5 || bit e 7 then s
      else match (s.firstAsleep [ptePa e]).or (s.kernelAsleep []) with
      | some pa => s.holdFor pa (.compress spid va)
      | none => (compress s spid a (va.toNat / pageBytes large * pageBytes large) large).getD s)
  | .fault => .next s

/-- PAGE_MIGRATION: a page moves to other frames of its partition's pool (R341); a sleeping stack holds it (R357). -/
def execPageMigration (spid : Nat) (va frame : Word) (s : State) : Host.Outcome State Fault Refusal :=
  match s.walk spid va.toNat with
  | .leaf a e large =>
    let part := spPart (s.space spid)
    let n := pageBytes large
    let f := frame.toNat
    if bit e 7 || bit e 5 || !inHbm (ptePa e) || f % n != 0 || !(framesOf f n).all (fun g => (s.pool part).contains g) then .next s
    else match (s.firstAsleep [ptePa e, f]).or (s.kernelAsleep []) with
    | some pa => .next (s.holdFor pa (.migrate spid va frame))
    | none =>
      let old := ptePa e
      let s1 := (s.shootDown spid (some (va.toNat / n * n))).dropRun part f (n / 65536)
      let s2 := (s1.fillPage f n (s1.pageIn old n)).emptyPage old n
      .next ((s2.putWord a (BitVec.ofNat 64 (e.toNat % 32768 + f))).giveFrames part (framesOf old n))
  | .asleep pa => .next (s.holdFor pa (.migrate spid va frame))
  | .fault => .next s

/-! ## Page requests (R338) -/

/-- PAGE_REQUEST: a fault on a page that must be mapped raises one request, on a GP core of the faulting master's die; later ones
join it. -/
def execPageRequest (master spid : Nat) (va : Word) (s : State) : Host.Outcome State Fault Refusal :=
  match s.walk spid va.toNat with
  | .fault => .next (if s.unmappable.contains (spid, va.toNat / 65536) then s else s.wantPage master spid va.toNat)
  | _ => .next s

/-- Sectors of the mooring queues on bytes of a space, in queue order, those of saved tasks last: core, command, sector
(R318). -/
def State.mooredOn (s : State) (spid lo len : Nat) : List (Nat × Nat × Nat) :=
  s.allCmds.flatMap (fun k =>
    if k.spid != spid then [] else
    (k.moored ++ (if k.parked then k.left.take 1 else [])).filterMap (fun i =>
      let on (va n : Nat) : Bool := meets va n lo len
      let here := if k.port = 0x341 then on (k.a.toNat + 64 * i) 64
        else if k.port = 0x32D then on (batchTarget (s.core (k.c / 4)).tile k i) 8 || on (k.b.toNat + 8 * i) 8
        else k.memRanges.any (fun r => on r.1 r.2)
      if here then some (k.c / 4, k.id, i) else none))

/-- A moored sector performs, in its turn (R192, R318). Of a saved task only near-memory commands do (R279), but all of a lost one
(R353). -/
def replayOne (s : State) (core id sec : Nat) : State :=
  match s.findCmd core id with
  | none => s
  | some k =>
    if k.done.contains sec || k.fin.isSome || k.ended.isSome then s
    else if !(s.core core).cmds.any (fun m => m.id == id) && !s.saved.any (fun v => v.lost && v.cmds.any (fun m => m.id == id)) &&
        !(decide (0x358 ≤ k.port) && decide (k.port ≤ 0x35C)) then s
    else if k.port = 0x341 then (if sectorReady s core k sec then runSector s core k sec else s)
    else if k.port = 0x32D then (if recordReady s core k sec then runRecord s core k sec else s)
    else if 0x358 ≤ k.port ∧ k.port ≤ 0x35C then (if nearReady s k then runNear s core k else s)
    else s

/-- KIND 3 stores that wait for bytes of a space try again (R209). -/
def replayStores (s : State) (spid lo len : Nat) : State :=
  s.wharfs.foldl (fun s e =>
    ((s.wharf e.1).stores.filter (fun a => a.spid == spid && fld a.info 0 4 == 3 && meets (fld a.info 128 64) 8 lo len)).foldl
      (fun s a => fireAgain s e.1 a) s) s

/-! ## The storage port (R188, R338, R362) -/

/-- A frame of a region that the space's launch marks STORAGE (R362). -/
def State.storageFrame (s : State) (spid pa : Nat) : Bool :=
  match s.tagOf pa with
  | none => true
  | some g => match s.launches.find? (fun l => l.spid == spid) with
    | some l => l.regions.any (fun r => bit r 16 && fld r 0 16 == g)
    | none => false

/-- What the request needs of a page: a write may reach a tagged frame of a STORAGE region, a read none (R362). -/
def PortReq.need : PortReq → Need
  | .write _ _ _ => ⟨1, true⟩
  | .read _ _ _ => Need.read
/-- The request at the head of the storage port: it waits for its pages and its stacks (none), is refused whole with
Unsupported Request, or performs at sys (R338, R357, R362, R379). -/
def portHead (s : State) (q : PortReq) : Option State :=
  let va := q.span.1
  let n := q.span.2
  let l := (pagesOf va (max n 1)).map (fun p => (p, s.reach 425 q.space p q.need))
  let told (s : State) (o : Option (List Byte)) : State := { s with portGave := s.portGave ++ [o] }
  if !bit (s.space q.space) 0 || l.any (fun e => match e.2 with
      | .at pa => q.need.tagged && !s.storageFrame q.space pa | .noMap => true | .denied => true | _ => false) then
    let s1 := s.fillPages 425 q.space va (max n 1)
    some (match q with | .write _ _ _ => s1 | .read _ _ _ => told s1 none)
  else if l.any (fun e => match e.2 with | .at pa => s.asleep pa | _ => true) then none
  else
    let len (p : Nat) : Nat := min (va + n) ((p / 65536 + 1) * 65536) - p
    let s1 := s.fillPages 425 q.space va (max n 1)
    some (match q with
      | .write _ _ bs => l.foldl (fun s e => match e.2 with | .at pa => s.putMem pa (sliceB bs (e.1 - va) (len e.1)) | _ => s) s1
      | .read _ _ _ => told s1 (some (l.flatMap (fun e => match e.2 with | .at pa => Mem.read s1.mem pa (len e.1) | _ => []))))
/-- What the request at the head of the storage port asks for while it waits. -/
def portAsk (s : State) (q : PortReq) : State :=
  (pagesOf q.span.1 (max q.span.2 1)).foldl (fun s p => match s.reach 425 q.space p q.need with
    | .unmapped => s.wantPage 425 q.space p
    | .at pa => if s.asleep pa then s.holdFor pa .port else s
    | _ => s) s
/-- The requests of the storage port perform in the order received, until one waits (R188); n bounds them. -/
def portRun (s : State) : Nat → State
  | 0 => s
  | n + 1 => match s.portQ with
    | [] => s
    | q :: t => match portHead s q with
      | none => portAsk s q
      | some u => portRun { u with portQ := t } n
/-- The storage port goes on. -/
def portTurn (s : State) : State := portRun s s.portQ.length

/-- Waiting accesses to bytes of a space walk again: moored entries in queue order, triggered stores, the storage port. -/
def replayPage (s : State) (spid lo len : Nat) : State :=
  portTurn (replayStores ((s.mooredOn spid lo len).foldl (fun s e => replayOne s e.1 e.2.1 e.2.2) s) spid lo len)

/-- A compressed page is expanded into frames, or the reason why it is not (R339, R342). A page that is not compressed stays as it
is. -/
def expandPage (s : State) (spid va : Nat) (keep : List (Nat × Nat)) : Except Stuck State :=
  match s.walk spid va with
  | .leaf a e large =>
    if !bit e 5 then .ok s
    else
      let d := ptePa e / 32768
      let n := pageBytes large
      match s.tier.find? (fun t => t.1 == d), s.kernelAsleep [] with
      | none, _ => .ok s
      | some _, some pa => .error (.wait pa)
      | some t, none => (needRun s (spPart (s.space spid)) (n / 65536) keep).map (fun r =>
          let s2 := r.2.fillPage r.1 n t.2
          { (s2.putWord a (BitVec.ofNat 64 ((e.toNat % 32768 ||| 64) - 32 + r.1))) with tier := NMap.del s2.tier d })
  | .asleep pa => .error (.wait pa)
  | .fault => .ok s
/-- PAGE_EXPANSION: a touched compressed page is expanded into frames, and what waits for it goes on (R339); it is tried again while
a stack that it needs sleeps (R357). -/
def execPageExpansion (spid : Nat) (va : Word) (s : State) : Host.Outcome State Fault Refusal :=
  match s.walk spid va.toNat with
  | .leaf _ e large =>
    let n := pageBytes large
    if !bit e 5 || !s.tier.any (fun t => t.1 == ptePa e / 32768) then .next s
    else .next (match expandPage s spid va.toNat (s.keeps spid (va.toNat / 65536)) with
      | .error (.spent s1) => exhausted s1 spid va.toNat n
      | .error (.wait _) => s
      | .ok s1 => replayPage s1 spid (va.toNat / n * n) n)
  | .fault | .asleep _ => .next s

/-! ## Mapping -/

/-- A table of the next level under an entry of a level, allocated and cleared where the entry names none (R334); `keep` holds the
pages that the access needs (R342). -/
def needTable (s : State) (part level at0 : Nat) (keep : List (Nat × Nat)) : Except Stuck (Nat × State) :=
  let e := s.pteAt at0
  if s.asleep at0 then .error (.wait at0)
  else if bit e 0 && !pteBad e level && !bit e 1 then .ok (ptePa e, s)
  else (needFrame s part keep).map (fun r => (r.1, (r.2.emptyFrame r.1).putWord at0 (BitVec.ofNat 64 (r.1 + 1))))

/-- The address of the entry of a page, with the tables above it (R335). -/
def needEntry (s : State) (spid va : Nat) (large : Bool) (keep : List (Nat × Nat)) : Except Stuck (Nat × State) :=
  let d := s.space spid
  let part := spPart d
  (needTable s part 1 (spRoot d + 8 * (va / 2 ^ 40 % 4096)) keep).bind (fun r =>
    if large then .ok (r.1 + 8 * (va / 2 ^ 28 % 4096), r.2)
    else (needTable r.2 part 2 (r.1 + 8 * (va / 2 ^ 28 % 4096)) keep).map (fun q => (q.1 + 8 * (va / 2 ^ 16 % 4096), q.2)))

/-- The pages of a range are no longer asked for nor declared unmappable. -/
def State.pageSettled (s : State) (spid lo len : Nat) : State :=
  let other (p : Nat × Nat) : Bool := !(p.1 == spid && meets (p.2 * 65536) 65536 lo len)
  { s with
    pageReqs := s.pageReqs.filter (fun q => other (q.1, q.2.1))
    unmappable := s.unmappable.filter other }

/-- The leaf for a page is written: with frames of the space's pool where its PPN field is zero, else with the frames that it
names, which stand in the pool no more. -/
def putLeaf (s : State) (spid va : Nat) (pte : Word) (large : Bool) : Except Stuck State :=
  let n := pageBytes large
  let part := spPart (s.space spid)
  (needEntry s spid va large (s.keeps spid (va / 65536))).bind (fun r =>
    if ptePa pte = 0 ∧ !bit pte 5 then
      (needRun r.2 part (n / 65536) (r.2.keeps spid (va / 65536))).map (fun q =>
        (q.2.emptyPage q.1 n).putWord r.1 (BitVec.ofNat 64 (pte.toNat % 32768 + q.1)))
    else .ok ((if bit pte 5 then r.2 else r.2.dropRun part (ptePa pte) (n / 65536)).putWord r.1 pte))
/-- PAGE_MAPPED: the kernel writes a valid leaf and marks the page mapped (R338). Bit 63 of the address tells a large page; a
leaf whose PPN field is zero is given frames of the space's pool, and frames that a leaf names stand in the pool no more. A
page that is mapped already stays as it is; a sleeping stack that is needed holds the kernel's writes (R357). -/
def execPageMapped (spid : Nat) (va pte : Word) (s : State) : Host.Outcome State Fault Refusal :=
  let large := bit va 63
  let n := pageBytes large
  let v := fld va 0 63
  let base := v / n * n
  let held (pa : Nat) : State := s.holdFor pa (.mapped spid va pte)
  if !bit pte 0 || !bit pte 1 || pteBad pte (if large then 2 else 3) || decide (2 ^ 52 ≤ v) || !bit (s.space spid) 0 then .next s
  else match s.walk spid v, s.kernelAsleep [] with
  | .leaf _ _ _, _ => .next s
  | .asleep pa, _ => .next (held pa)
  | .fault, some pa => .next (held pa)
  | .fault, none => .next (match putLeaf s spid v pte large with
    | .error (.wait pa) => held pa
    | .error (.spent s1) => exhausted s1 spid v n
    | .ok s1 => replayPage (s1.pageSettled spid base n) spid base n)

/-- PAGE_UNMAPPABLE: the kernel declares a page unmappable; what waits on it ends with its code (R338). -/
def execPageUnmappable (spid : Nat) (va : Word) (s : State) : Host.Outcome State Fault Refusal :=
  let page := va.toNat / 65536
  match s.walk spid va.toNat with
  | .fault =>
    let s1 := s.pageSettled spid (page * 65536) 65536
    .next (replayPage { s1 with unmappable := s1.unmappable ++ [(spid, page)] } spid (page * 65536) 65536)
  | .asleep pa => .next (s.holdFor pa (.unmappable spid va))
  | .leaf _ _ _ => .next s

/-! ## Spaces that go -/

/-- The frames of HBM that a leaf maps. -/
def framesOfLeaf (l : Leaf) : List Nat :=
  if bit l.e 5 || !inHbm (ptePa l.e) then [] else framesOf (ptePa l.e) (pageBytes l.large)
/-- Where the descriptor of a space stands in memory (R333). -/
def State.spacePlace (s : State) (spid : Nat) : Nat := (s.mreg 0x300).toNat + 16 * spid
/-- The pages and tables of a space go back to the pool of its partition, and its descriptor is gone (R292, R299, R349). A
frame that another space maps stays. -/
def freeSpace (s : State) (spid : Nat) : State :=
  let part := spPart (s.space spid)
  let shared := (s.spaces.filter (fun e => e.1 != spid && bit e.2 0)).flatMap (fun e => (s.leaves e.1).flatMap framesOfLeaf)
  let lv := s.leaves spid
  let descs := lv.filterMap (fun q => if bit q.e 5 then some (ptePa q.e / 32768) else none)
  let frames := ((lv.flatMap framesOfLeaf ++ s.tables spid).filter (fun f => !shared.contains f)).eraseDups
  let s1 := frames.foldl (fun s f => (s.wipeFrame f).giveFrame part f) s
  { (s1.putMem (s.spacePlace spid) (leBytes 16 0)) with
    spaces := NMap.del s1.spaces spid
    tier := s1.tier.filter (fun e => !descs.contains e.1) }
/-- A sleeping stack that the kernel has to read or write before the space can go (R357). -/
def State.spaceAsleep (s : State) (spid : Nat) : Option Nat := (s.firstAsleep [s.spacePlace spid]).or (s.kernelAsleep [spid])

end Sys2Proof.Machine
end

