-- ==== Sys2Proof/Machine/Exchange.lean ====
section
/-! DEFINITION. The collective buffers of the lock-keepers (R241), the aqueduct (R258 to R269) and peer transfers (R187, R270)
at work. -/

namespace Sys2Proof.Machine

/-! ## The collective buffer (R241) -/

/-- Bytes that a lock-keeper's buffer holds. -/
def Keeper.bytes (k : Keeper) : Nat :=
  ((k.buf ++ k.accs.flatMap (fun a => a.held)).map (fun p => 64 + p.payload.length)).foldl (· + ·) 0 +
    (k.accs.map (fun a => 64 + a.data.length)).foldl (· + ·) 0

/-- A frame of a launch that a buffer had spilled into goes back to its pool. -/
def unspill (s : State) (e : Word × Nat) : State :=
  match s.launchOf e.1 with
  | some l => s.giveFrame l.part e.2
  | none => s
/-- Frames of the launch take what exceeds 4 MiB, and go back when it shrinks; where no frame is found the launch is
aborted (R241, R342). While a stack that the search needs sleeps, no frame is taken. -/
def spillFix (s : State) (lk : Nat) (l : Launch) : State :=
  let k := s.keeper lk
  let need := (k.bytes - 4194304 + 65535) / 65536
  if need < k.spill.length then
    (k.spill.drop need).foldl unspill (s.setKeeper lk { k with spill := k.spill.take need })
  else if k.spill.length < need then
    match needFrame s l.part [] with
    | .ok (f, t) => let j := t.keeper lk; t.setKeeper lk { j with spill := j.spill ++ [(l.id, f)] }
    | .error (.spent t) => t.updLaunch l.id (fun l => (l.taint (2 ^ 32 - 1, 0, 0x13, 0)).abort)
    | .error (.wait _) => s
  else s

/-- The packet is at none of the places where it could wait. -/
def dropPkt (s : State) (p : Packet) : State :=
  { s with
    packets := s.packets.erase p
    keepers := s.keepers.map (fun e => (e.1, { e.2 with buf := e.2.buf.erase p })) }
/-- The packet stands somewhere in this device. -/
def State.hasPkt (s : State) (p : Packet) : Bool := s.packets.contains p || s.keepers.any (fun e => e.2.buf.contains p)
/-- A packet waits in the collective buffer of a lock-keeper. -/
def holdPkt (s : State) (p : Packet) (lk : Nat) (l : Launch) : State :=
  if (s.keeper lk).buf.contains p then s
  else
    let t := dropPkt s p
    let k := t.keeper lk
    spillFix (t.setKeeper lk { k with buf := k.buf ++ [p] }) lk l

/-- A packet waits in the memory side, as a moored entry does, outside the collective buffers (R264, R318). -/
def replayPkt (s : State) (p : Packet) : State :=
  if s.packets.contains p then s else let t := dropPkt s p; { t with packets := t.packets ++ [p] }

/-! ## Joining an exchange (R262) -/

/-- Acceptance of an exchange command: it joins its exchange, and its core's home lock-keeper serves its space (R346). -/
def joinAq (s : State) (k : Cmd) : State :=
  match s.launchOf k.task.launch with
  | none => s
  | some l => joinSeq (s.giveSlot (400 + homeOf (k.c / 4)) k.spid) l k

/-- eng.aq: the checks and freezes of R261, then acceptance into the store queue, and the comparison of R262. -/
def execEngAq (g : BitVec 4) (src : BitVec 10) (s : State) : Host.Outcome State Fault Refusal :=
  let off := (s.cx.aS 13).toNat
  let w := s.cx.bS 13
  let m : BitVec 1024 := BitVec.ofNat 1024 (Mem.readLE s.iss.tile0 off 128)
  let rt := s.cx.tileAt (fld m 48 6) (64 * fld m 54 10)
  trigger s g src []
    [chk (fld w 0 46 != 0) (s.own 1), chk (!s.cx.inWindow off 128) (s.own 9), chk (off % 64 != 0) (s.own 0x0C),
     chk (s.ck.held s.iss.gid off 128) (s.freezeAt 8),
     chk (mapBad m) (s.late 1),
     chk (s.cx.tileOut (fld m 48 6) (64 * fld m 54 10) (4 * mapN m) || !s.cx.inWindow (cwOff w) 8 ||
       (bit m 191 && s.wharfOut s.cx.launchId (fld m 154 2) (fld m 128 26) 32)) (s.late 9),
     chk (fld m 192 64 % mapW m != 0 || fld m 256 64 % mapW m != 0 || fld m 128 26 % 32 != 0) (s.late 0x0C),
     chk (s.ck.held s.iss.gid rt (4 * mapN m)) (s.freezeAt 10), admission s (cwOff w)]
    (fun t =>
      let k := { t.newCmd 0x350 (BitVec.ofNat 64 off) w with
        info := m, ranges := [(off, 128), (rt, 4 * mapN m)], cw := cwOff w, ranks := rankTable s.iss.tile0 rt (mapN m) }
      joinAq (fireCmd (some false) false 0 k t) k)

/-! ## Blocks (R260, R263 to R268) -/

/-- A rank of an exchange is through with a code, and the other devices are told, once (R268). -/
def throughAq (s : State) (l : Launch) (seq : BitVec 32) (rank code : Nat) (own : Bool) : State :=
  let mine (r : SeqRec) : Bool := r.isFor l.id 0x350 seq && r.failed.isNone
  if s.seqs.any (fun r => mine r && r.joined.any (fun j => j.rank == rank && j.through.isNone)) then
    let s1 := { s with seqs := s.seqs.map (fun r => if mine r then
      { r with joined := r.joined.map (fun j => if j.rank = rank then { j with through := some code } else j) } else r) }
    if own then s1.tell l.id seq (.through rank code) else s1
  else s
/-- Ranks of this device that have sent and received everything are through; once all are, every command of the exchange ends
with the lowest code met anywhere in it (R266, R268). -/
def settleAq (s : State) (l : Launch) (seq : BitVec 32) : State :=
  let s1 := (s.seqCmds l.id 0x350 seq).foldl (fun s e => match s.findCmd e.1 e.2 with
    | some k => if k.aqDone then throughAq s l seq (mapRank k.info) (lowCode (k.fails.map (fun f => f.2))) true else s
    | none => s) s
  match s1.seqs.find? (fun r => r.isFor l.id 0x350 seq && r.live) with
  | none => s1
  | some r =>
    if r.full && r.joined.all (fun j => j.through.isSome) then
      endSeq { s1 with seqs := s1.seqs.map (fun q => if q = r then r.ends 0 else q) } l.id 0x350 seq
        (lowCode ((r.joined.map (fun j => j.through.getD 0)).filter (· != 0)))
    else s1

/-- What the read of a block's source comes to: bytes, a wait, a stack in self-refresh, a page to be mapped, or a code. -/
inductive BlockRead where
  | bytes (b : List Byte)
  | wait
  | asleep (pa : Nat)
  | unmapped (va : Nat)
  | code (n : Nat)
  deriving DecidableEq, Repr

/-- The source elements of a block, read by their sender (R266, R268, R338, R352, R357, R362). -/
def readBlock (s : State) (core : Nat) (k : Cmd) (rank off n : Nat) : BlockRead :=
  (List.range n).foldl (fun a i =>
    match a with
    | .bytes b =>
      let va := mapSaddr k.info rank (off + i)
      (match s.reach core k.spid va Need.read with
       | .unmapped => .unmapped va
       | .expand => .wait
       | .noMap => .code 4
       | .denied => .code 3
       | .at pa =>
         if s.asleep pa then .asleep pa
         else if marksHit s.marks pa (mapW k.info) then .code 1
         else .bytes (b ++ Mem.read s.mem pa (mapW k.info)))
    | r => r) (.bytes [])

/-- The elements of a block are the sender's, and none has travelled before. -/
def blockGood (m : BitVec 1024) (sender off n : Nat) : Bool :=
  decide (1 ≤ n) && decide (n * mapW m ≤ 4096) && decide (off + n ≤ mapTotal m) &&
  (List.range n).all (fun i => mapCoord m (off + i) (mapRpos m) == sender)

/-- Keys of a block's elements in its sender's lists. -/
def blkKeys (m : BitVec 1024) (rank off n : Nat) : List Nat := (List.range n).map (fun i => sentKey m rank (off + i))
/-- The elements have performed at their receiver, or failed there with a code: their sender is told of it. Once every element it
sends has performed, its queue entry has too (R266). -/
def landedAq (s : State) (core id rank off n code : Nat) : State :=
  let s1 := s.updCmd core id (fun k => { k with
    away := k.away.filter (fun i => !(blkKeys k.info rank off n).contains i)
    fails := if code = 0 then k.fails else k.fails ++ [(0, code)] })
  match s1.findCmd core id with
  | some k => if k.sent = mapTotal k.info ∧ k.away = [] then s1.retire k.c id else s1
  | none => s1
/-- A block is through at its receiver with a code (R264, R266, R268). -/
def closeBlock (s : State) (l : Launch) (r : Nat × Cmd) (p : Packet) (code : Nat) : State :=
  let seq := pktSeq p.hdr
  let off := blkOff p.hdr
  let n := blkCount p.hdr
  let s1 := (dropPkt s p).updCmd r.1 r.2.id (fun k => { k with
    done := k.done ++ (List.range n).map (fun i => off + i)
    fails := if code = 0 then k.fails else k.fails ++ [(0, code)] })
  let s2 := if p.dev = l.rank then
      match s1.aqCmd l.id seq (fun k => mapRank k.info == blkSender p.hdr) with
      | some e => landedAq s1 e.1 e.2.id (mapRank r.2.info) off n code
      | none => s1
    else s1.note l.id l.rank p.dev p.hdr (.landed (mapRank r.2.info) off n code)
  settleAq s2 l seq

/-- Bytes of a block have performed at its receiver: they count for an attached barrier, unless the way to its Wharf crosses a
failed edge (R267, R356). -/
def landBytes (s : State) (core : Nat) (k : Cmd) (n : Nat) : State :=
  if bit k.info 191 && !s.cutOff (core / 96) (fld k.info 154 2) then addLanded s (fld k.info 154 2) (fld k.info 128 26) n k.spid else s
/-- A block whose bytes have all performed at its receiver, or failed with a code, is through (R264, R267). -/
def endBlock (s : State) (l : Launch) (r : Nat × Cmd) (p : Packet) (code : Nat) : State :=
  closeBlock (if code = 0 then landBytes s r.1 r.2 (blkRange r.2.info p).2 else s) l r p code
/-- A block's bytes are written at the receiver, element by element (R264, R265). Its pages are known to be mapped and writable;
bytes for a page of another device's memory leave for it, and the block stands until they are visible there, or waits for their
slots (none) (R186, R227, R332). -/
def writeBlock (s : State) (l : Launch) (r : Nat × Cmd) (p : Packet) : Option State :=
  let a := blkRange r.2.info p
  let bytes (q : Nat) : List Byte := (p.payload.drop (q - a.1)).take (min (a.1 + a.2) ((q / 65536 + 1) * 65536) - q)
  let pages := (pagesOf a.1 a.2).filterMap (fun q => match s.reach r.1 r.2.spid q Need.write with | .at pa => some (q, pa) | _ => none)
  let s1 := pages.foldl (fun s e =>
    let t := s.fillTlb r.1 r.2.spid e.1
    if inPeer e.2 then t else t.putMem e.2 (bytes e.1)) s
  let far := pages.filter (fun e => inPeer e.2)
  if far = [] then some (endBlock s1 l r p 0)
  else
    let place (q : Nat) : Nat := q / 65536 - a.1 / 65536
    let t := dropPkt s1 p
    far.foldl (fun (o : Option State) e => o.bind (fun s =>
      let n : Note := .store 1000 t.nextId (place e.1) (e.2 % 2 ^ 39)
      s.leave l (r.1 / 96) (s.peerOf r.2.spid e.2) (1 + ((bytes e.1).length + 63) / 64)
        (.pkt ⟨0, bytes e.1, l.id, homeOf r.1, l.rank, 0, n⟩)))
      (some { t with
        packets := t.packets ++ [{ p with tag := t.nextId, note := .waits (far.map (fun e => place e.1)) 0 }], nextId := t.nextId + 1 })

/-- The Wharf of an attached barrier refuses the receiving unit's addition (R267, R346). -/
def landedDenied (s : State) (r : Nat × Cmd) : Bool :=
  bit r.2.info 191 && !s.admits (392 + fld r.2.info 154 2) r.1 r.2.spid true
/-- A block at its receiving unit, whose command is pending and whose exchange every rank has joined: it waits for its pages
and its stacks, fails with a code, or is written (R264, R268, R338, R357). -/
def landBlock (s : State) (l : Launch) (r : Nat × Cmd) (p : Packet) : State :=
  let a := blkRange r.2.info p
  let pages := (pagesOf a.1 a.2).map (fun q => (q, s.reach r.1 r.2.spid q Need.write))
  let away := pages.filter (fun q => q.2 == .unmapped)
  let sleeps := pages.filterMap (fun q => match q.2 with | .at pa => if s.asleep pa then some pa else none | _ => none)
  let walked := s.fillPages r.1 r.2.spid a.1 a.2
  if away ≠ [] then replayPkt (away.foldl (fun s q => s.wantPage r.1 r.2.spid q.1) s) p
  else if pages.any (fun q => q.2 == .denied) || landedDenied s r then closeBlock walked l r p 3
  else if pages.any (fun q => q.2 == .noMap) then closeBlock walked l r p 4
  else if pages.any (fun q => q.2 == .expand) then replayPkt s p
  else match sleeps with
  | pa :: _ => (replayPkt s p).holdFor pa (.block p)
  | [] =>
    if edgeMarked s r.1 r.2.spid a.1 a.2 (mapW r.2.info) then closeBlock walked l r p 2
    else (writeBlock s l r p).getD (replayPkt s p)

/-- The order of the sending context lets the block's elements perform (R170, R189, R190); of another device's sender, that
device has seen to it. -/
def State.blockTurn (s : State) (l : Launch) (r : Nat × Cmd) (p : Packet) : Bool :=
  let a := blkRange r.2.info p
  match (if p.dev = l.rank then s.aqCmd l.id (pktSeq p.hdr) (fun k => mapRank k.info == blkSender p.hdr) else none) with
  | some e => s.entryReady e.2.c e.2.id a.1 a.2
  | none => true

/-- The packet engine that a block passes refuses it: one from another device passes the home lock-keeper of its receiver, and
one that comes early waits there (R264, R346, log 58). -/
def engineDenied (s : State) (l : Launch) (p : Packet) (early : Bool) : Bool :=
  let lk := homeOf (blkCtx p.hdr / 4)
  if p.dev = l.rank then
    early && (match s.aqCmd l.id (pktSeq p.hdr) (fun k => mapRank k.info == blkSender p.hdr) with
      | some e => !s.admits (396 + lk) e.1 l.spid true
      | none => false)
  else !s.admits (396 + lk) (400 + lk) l.spid true
/-- A block that has been cut goes to its receiver on this device, or leaves for another one (R264). Until its receiver's
command is accepted, and every rank has joined, it waits in the receiving core's home lock-keeper. -/
def placeBlock (s : State) (l : Launch) (p : Packet) : State :=
  let h := p.hdr
  let lk := homeOf (blkCtx h / 4)
  if Note.isWait p.note then
    match p.note, s.blkInto p with
    | .waits [] code, some r => endBlock s l r p code
    | .waits [] _, none => dropPkt s p
    | _, _ => s
  else if blkDev h ≠ l.rank then
    match s.leave l (p.src / 6) (blkDev h) (pktSlots p) (.pkt p) with
    | some t => dropPkt t p
    | none => s
  else if p.src < 24 && s.cutOff (p.src / 6) (lk / 6) then failSeq (dropPkt s p) l.id 0x350 (pktSeq h) 5
  else if engineDenied s l p ((s.blkInto p).isNone || !s.allJoined l.id 0x350 (pktSeq h)) then
    failSeq (dropPkt s p) l.id 0x350 (pktSeq h) 3
  else match s.blkInto p with
  | none => holdPkt s p lk l
  | some r =>
    let m := r.2.info
    if fld h 84 10 + 1 != mapN m then cancelSeq s l.id 0x350 (pktSeq h)
    else if !s.allJoined l.id 0x350 (pktSeq h) then holdPkt s p lk l
    else if !blockGood m (blkSender h) (blkOff h) (blkCount h) ||
        (List.range (blkCount h)).any (fun i => r.2.done.contains (blkOff h + i)) then dropPkt s p
    else match p.note with
    | .failed x => closeBlock s l r p x
    | _ => if s.blockTurn l r p then landBlock s l r p else s

/-- The sender of this device cuts a block: it reads the source elements, after every older store of its context on their
granules, and the block is on its way (R170, R263, R266, R335). -/
def cutBlock (s : State) (l : Launch) (core : Nat) (k : Cmd) (pkt : Packet) (rank : Nat) : State :=
  let m := k.info
  let off := blkOff pkt.hdr
  let n := blkCount pkt.hdr
  let keys := blkKeys m rank off n
  let vas := (List.range n).map (fun i => mapSaddr m rank (off + i))
  let send (s : State) (bs : List Byte) (note : Note) : State :=
    let p : Packet := { pkt with
      payload := bs ++ List.replicate ((64 - bs.length % 64) % 64) 0, src := homeOf core, dev := l.rank, tag := 0, note := note }
    let s1 := s.updCmd core k.id (fun q => { q with
      done := q.done ++ keys, away := q.away ++ keys, moored := []
      fails := match note with | .failed x => q.fails ++ [(0, x)] | _ => q.fails })
    placeBlock { s1 with packets := s1.packets ++ [p] } l p
  if keys.any k.done.contains || !vas.all (fun va => s.entryReady k.c k.id va (mapW m)) ||
      (blkDev pkt.hdr != l.rank && (s.storeAhead k (blkDev pkt.hdr) || s.aqFront k (blkDev pkt.hdr)
        ((s.aqRank l.id (mapSeq m) rank).map (fun j => (fld j.info 256 64 + mapW m * off, mapW m * n))))) then s
  else match readBlock s core k rank off n with
  | .wait => s
  | .asleep pa => s.holdFor pa (.block pkt)
  | .unmapped va => moor s core k 0 va
  | .code x => send (vas.foldl (fun s va => s.fillTlb core k.spid va) s) [] (.failed x)
  | .bytes bs =>
    let t := vas.foldl (fun s va => s.fillTlb core k.spid va) s
    if blkDev pkt.hdr ≠ l.rank ∧ s.admits (396 + homeOf core) core k.spid true = false then send t [] (.failed 3) else send t bs .data

/-- AQUEDUCT_BLOCK_ARRIVAL: a block on its way (R264). Without a payload it is one that its sender on this device is to cut;
with one, it stands in this device, or comes from another. -/
def execAqueductBlockArrival (pkt : Packet) (s : State) : Host.Outcome State Fault Refusal :=
  match s.launchOf pkt.launch with
  | none => .next (dropPkt s pkt)
  | some l =>
    let h := pkt.hdr
    let seq := pktSeq h
    if !isBlock pkt || fld h 29 3 != 1 || l.closedAq.contains seq || s.failing l.id seq then .next (dropPkt s pkt)
    else if pkt.payload = [] ∧ pkt.note = .data then
      match s.aqCmd l.id seq (fun k => mapRank k.info == blkSender h) with
      | none => .next s
      | some e =>
        let m := e.2.info
        let entry (r : Nat) : Nat := (e.2.ranks.getD r 0).toNat
        if fld h 84 10 + 1 != mapN m || !blockGood m (blkSender h) (blkOff h) (blkCount h) then .next s
        else match (List.range (mapN m)).find? (fun r =>
            entry r / 8192 % 65536 == blkDev h && ctxOfPos (entry r % 8192) == blkCtx h) with
        | none => .next s
        | some rank => .next (cutBlock s l e.1 e.2 pkt rank)
    else if s.hasPkt pkt then .next (placeBlock s l pkt)
    else if pkt.dev = l.rank ∨ pkt.src < 24 ∨ blkDev h ≠ l.rank ∨ Note.moves pkt.note = false then .next s
    else .next (placeBlock { s with packets := s.packets ++ [pkt] } l pkt)

/-! ## Peer transfers (R187, R270) -/

/-- A template lets the transfer reach its range (R270). -/
def grantPeer (g : Grant) (x : PeerXfer) (write : Bool) (len : Nat) : Bool :=
  g.launch == x.launch && fld g.info 0 11 == x.tcore.toNat && (fld g.info 32 16 == x.sdev.toNat || fld g.info 32 16 == 0xFFFF) &&
  (bit g.info 31 || fld g.info 16 11 == x.score.toNat) && bit g.info (if write then 48 else 49) &&
  decide (fld g.info 64 32 ≤ x.toff.toNat) && decide (x.toff.toNat + len ≤ fld g.info 64 32 + fld g.info 96 32)

/-- The flag word after a transfer (R187). -/
def flagAdd (w : Word) (n : Nat) : Word :=
  BitVec.ofNat 64 ((fld w 40 24 + 1) % 2 ^ 24 * 2 ^ 40 + (fld w 0 40 + n) % 2 ^ 40)

/-- The core whose position is the low 11 bits of R14. -/
def coreOfPos (p : Nat) : Nat := ctxOfPos p / 4
/-- The 11-bit position of a core. -/
def corePos (k : Nat) : Nat := (ctxPos (4 * k)).toNat

/-- A permitted write takes effect at its receiver, on the bytes that its launch holds there: data, then flag (R187, R284); none
where no template permits it. -/
def peerWrite (s : State) (x : PeerXfer) (bs : List Byte) : Option State :=
  let t := coreOfPos x.tcore.toNat
  match (s.core t).grants.find? (fun g => grantPeer g x true bs.length) with
  | none => none
  | some g =>
    let s1 := s.updCore t (fun k => k.putOwn x.launch x.toff.toNat bs)
    let fo := fld g.info 128 32
    some (s1.updCore t (fun k => k.putOwn x.launch fo (leBytes 8 (flagAdd (BitVec.ofNat 64 (ofLE (k.ownBytes x.launch fo 8))) bs.length).toNat)))
/-- The tile-SRAM port of the receiving core admits the transfer (R346): a sender here carries its own core's number, and one
of another device that of the lock-keeper it comes through (log 57). -/
def State.peerAdmits (s : State) (l : Launch) (x : PeerXfer) (write : Bool) : Bool :=
  let t := coreOfPos x.tcore.toNat
  s.admits t (if x.sdev.toNat = l.rank then coreOfPos x.score.toNat else 400 + homeOf t) l.spid write

/-- A peer write of this device may go: its tile bytes are free, and no older write of its context to that core is left
(R143, R187). -/
def peerReady (s : State) (core : Nat) (k : Cmd) : Bool :=
  let r := k.ranges.headD (0, 0)
  s.tileFree core k r.1 r.2 && s.entryReady k.c k.id 0 0 &&
  !((s.core core).cmds.any (fun m => m.port == 0x351 && m.c == k.c && decide (m.age < k.age) && fld m.a 32 32 == fld k.a 32 32))

/-- What a transfer comes to at its receiver on this device: the state, the code and FIRST of its answer (R144), and the bytes
that a read lands (R187, R270). -/
def servePeer (s : State) (l : Launch) (x : PeerXfer) : State × Nat × Nat × List Byte :=
  let t := coreOfPos x.tcore.toNat
  let n := 64 * x.len
  match x.kind with
  | .write =>
    if !s.peerAdmits l x true then (s, 3, 0, [])
    else match peerWrite s x x.data with
    | some u => (u, 0, 0, [])
    | none => (s, 3, 0, [])
  | _ =>
    if !s.peerAdmits l x false || !(s.core t).grants.any (fun g => grantPeer g x false n) then (s, 3, 0, [])
    else match (s.core t).ownMark x.launch x.toff.toNat n with
    | some i => (s, 1, i, [])
    | none => (s, 0, 0, (s.core t).ownBytes x.launch x.toff.toNat n)
/-- A peer command of this device ends with an answer: a read's bytes reach its range (R270). -/
def endPeer (s : State) (core : Nat) (k : Cmd) (code first : Nat) (bs : List Byte) : State :=
  let r := k.ranges.headD (0, 0)
  finish (if k.port = 0x352 ∧ code = 0 then s.updCore core (fun c => c.putTile r.1 (sliceB bs 0 r.2)) else s) core k.id code first

/-- A peer command of this device goes: a write whose source line is marked ends with CODE 1; a transfer to a core here is
served at once, and one to another device leaves (R187, R227, R270). -/
def runPeer (s : State) (l : Launch) (core : Nat) (k : Cmd) (x0 : PeerXfer) : State :=
  let r := k.ranges.headD (0, 0)
  let x : PeerXfer := { x0 with
    kind := if k.port = 0x351 then .write else .read, len := r.2 / 64
    data := if k.port = 0x351 then Mem.read (s.core core).tile r.1 r.2 else [] }
  match (if k.port = 0x351 then firstMark (s.core core).tmarks r.1 r.2 else none) with
  | some i => finish s core k.id 1 i
  | none =>
    if fld k.a 48 16 = l.rank then
      let v := servePeer s l x
      endPeer v.1 core k v.2.1 v.2.2.1 v.2.2.2
    else match s.leave l (core / 96) (fld k.a 48 16) (1 + x.data.length / 64) (.peer x) with
    | some t => t.updCmd core k.id (fun m => { m with prog := 1 })
    | none => s

/-- A transfer of another device for a launch that is not here is refused: no template of it stands here (R187, R270). -/
def State.refusePeer (s : State) (x : PeerXfer) : State :=
  let y : PeerXfer := { x with kind := if x.kind = .write then .wrote else .answer, code := 3, first := 0, data := [] }
  { s with outbound := s.outbound ++ [⟨s.nextId, x.sdev.toNat, 0, none, 0, .peer y, []⟩], nextId := s.nextId + 1 }

/-- PEER_TRANSFER_ARRIVAL: a transfer reaches its receiver, or its answer its sender (R187, R270). One whose answer finds no slots
in the skid buffer of its port waits with it (R227). A sender on this device
is the command that the transfer names, if its places are that command's. -/
def execPeerTransferArrival (x : PeerXfer) (s : State) : Host.Outcome State Fault Refusal :=
  match s.launchOf x.launch with
  | none => .next (if x.kind = .write ∨ x.kind = .read then s.refusePeer x else s)
  | some l =>
    if x.sdev.toNat = l.rank then
      let core := coreOfPos x.score.toNat
      match (s.core core).cmds.find? (fun k => k.id == x.id && (k.port == 0x351 || k.port == 0x352) && k.task.launch == l.id &&
          fld k.a 48 16 == x.ddev.toNat && fld k.a 32 11 == x.tcore.toNat && fld k.a 0 21 == x.toff.toNat && k.ended.isNone) with
      | none => .next s
      | some k =>
        if x.kind = .wrote ∨ x.kind = .answer then
          .next (if k.prog = 1 then endPeer s core k x.code x.first x.data else s)
        else
          let cut := fld k.a 48 16 == l.rank && s.cutOff (core / 96) (coreOfPos x.tcore.toNat / 96)
          .next (if k.prog = 0 && peerReady s core k && !cut then runPeer s l core k x else s)
    else if x.ddev.toNat = l.rank ∧ (x.kind = .write ∨ x.kind = .read) then
      let v := servePeer s l x
      let y : PeerXfer := { x with
        kind := if x.kind = .write then .wrote else .answer, code := v.2.1, first := v.2.2.1, data := v.2.2.2 }
      .next ((v.1.leave l (coreOfPos x.tcore.toNat / 96) x.sdev.toNat (1 + y.data.length / 64) (.peer y)).getD s)
    else .next s

end Sys2Proof.Machine
end

