-- ==== Sys2Proof/Machine/Collective.lean ====
section
/-! DEFINITION. Collectives on the lock-keepers (R241 to R256): packets hop by hop, the folding of accumulators, what other
devices tell (log 57), the emits of firmware, and the registers of its interface. -/

namespace Sys2Proof.Machine

/-! ## Headers and entries (R246, R247) -/

/-- An entry breaks R247. -/
def entBad (e : Word) : Bool :=
  bit e 43 || !posOK (entCore e) ||
  (match entKind e with
   | 1 => entArg e != 0
   | 2 => entArg e != 0
   | 3 => fld e 15 15 != 0
   | 5 => fld e 23 6 != 0
   | _ => true)

/-- Entry 0 popped: entries move down, NENT falls by one (R248). -/
def popEntry (h : BitVec 512) : BitVec 512 :=
  let n := h.toNat
  let low := n % 2 ^ 128 - fld h 29 3 * 2 ^ 29 + (fld h 29 3 - 1) * 2 ^ 29
  BitVec.ofNat 512 (low + n / 2 ^ 192 * 2 ^ 128)

/-! ## Folding (R55, R249) -/

/-- ⊕ of two elements of a format (R249). -/
def foldElem (f : Fmt) (op a b : Nat) : Nat :=
  if f = .int32 then
    if op = 0 then (a + b) % 2 ^ 32
    else if op = 1 then (if toSigned 32 a < toSigned 32 b then b else a)
    else (if toSigned 32 b < toSigned 32 a then b else a)
  else if op = 0 then fadd f a b
  else if op = 1 then fmax f a b
  else fmin f a b

/-- ⊕ of two payloads, element by element. -/
def foldBytes (f : Fmt) (op : Nat) (a b : List Byte) : List Byte :=
  let w := width f / 8
  (List.range (a.length / w)).flatMap (fun i => leBytes w (foldElem f op (leAt a (w * i) w) (leAt b (w * i) w)))

/-- The packet belongs to the accumulator's key (R249). -/
def Accum.isKey (a : Accum) (p : Packet) : Bool :=
  a.launch == p.launch && a.seq == pktSeq p.hdr && a.chunk.toNat == fld p.hdr 112 16 &&
  a.dev.toNat == entDev (pktEntry p.hdr 0) && a.core.toNat == entCore (pktEntry p.hdr 0)

/-- The packet breaks R249 beside an accumulator of its key. -/
def foldBad (a : Option Accum) (h : BitVec 512) : Bool :=
  let lo := fld h 64 10
  let hi := fld h 74 10
  decide (hi < lo) || (lo != 0 && lo != hi) || decide (fld h 84 10 < hi) ||
  (match a with
   | some a => fld a.hdr 16 13 != fld h 16 13 || fld a.hdr 84 10 != fld h 84 10 ||
      (match a.high with | some x => decide (lo ≤ x) | none => false)
   | none => false)

/-- A packet folded into an accumulator: the header kept is that of the packet folded last. -/
def foldOne (a : Accum) (p : Packet) : Accum :=
  { a with
    hdr := p.hdr
    high := some (fld p.hdr 74 10)
    data := match a.high with
      | none => p.payload
      | some _ => foldBytes (Fmt.ofCodeRaw (fld p.hdr 24 5)) (fld p.hdr 22 2) a.data p.payload }

/-- Next rank that an accumulator takes. -/
def Accum.next (a : Accum) : Nat := match a.high with | none => 0 | some h => h + 1
/-- Held packets whose turn has come are folded; `n` bounds them by their number. -/
def foldHeld (a : Accum) : Nat → Accum
  | 0 => a
  | n + 1 => match a.held.find? (fun p => fld p.hdr 64 10 == a.next) with
    | none => a
    | some p => foldHeld (foldOne { a with held := a.held.erase p } p) n

/-- A packet folded into its accumulator, or held for its turn (R249). -/
def foldInto (a : Accum) (p : Packet) : Accum :=
  if fld p.hdr 64 10 = a.next then foldHeld (foldOne a p) a.held.length else { a with held := a.held ++ [p] }

/-- RLO := 0 and RHI := NRM1 in a header. -/
def fullRange (h : BitVec 512) : BitVec 512 :=
  BitVec.ofNat 512 (h.toNat - fld h 64 20 * 2 ^ 64 + fld h 84 10 * 2 ^ 74)

/-! ## Completion (R255) -/

/-- The command has read its whole source, no packet of it is left on its way, its destination is full, and its collective has
been compared on every rank (R254 to R256). That every unit of its source has been read is the model's: DESIGN CHOICE, since R255
names only the other two conditions, which a command whose firmware has emitted nothing yet would meet (log 63). -/
def collReady (s : State) (k : Cmd) : Bool :=
  k.prog == 1 && (List.range (descSrc k.info / 64)).all (fun i => k.done.contains i) && decide (descDst k.info ≤ k.delivered) &&
  k.away == [] && s.allJoined k.task.launch 0x338 (descSeq k.info)

/-- Every command of a collective on this device that is through ends with CODE 0. It keeps that code where another rank's source
turns out to be marked later, though R255 gives every rank code 1 then: DESIGN CHOICE, since a completion word is written once
(log 63). -/
def settleColl (s : State) (launch : Word) (seq : BitVec 32) : State :=
  seqOver ((s.seqCmds launch 0x338 seq).foldl (fun s e => match s.findCmd e.1 e.2 with
    | some k => if collReady s k then finish s e.1 e.2 0 0 else s
    | none => s) s) launch 0x338 seq

/-- A packet emitted on this device has ended or been absorbed: its command no longer waits for it (R255). -/
def endTagHere (s : State) (launch : Word) (tag : Nat) : State :=
  let own (k : Cmd) : Bool := k.port == 0x338 && k.task.launch == launch && k.away.contains tag
  match s.allCmds.find? own with
  | none => s
  | some k => settleColl (s.updCmd (k.c / 4) k.id (fun m => { m with away := m.away.filter (· != tag) })) launch (descSeq k.info)
/-- A packet has ended or been absorbed, and the device that emitted it learns so (R255). -/
def endTag (s : State) (l : Launch) (p : Packet) : State :=
  if p.tag = 0 then s
  else if p.dev = l.rank then endTagHere s l.id p.tag
  else s.note l.id l.rank p.dev p.hdr (.gone p.tag)

/-! ## Hops (R248) -/

/-- Entry 0 has been acted on at a lock-keeper: the packet goes on from there, or ends (R248). -/
def passOn (s : State) (l : Launch) (p : Packet) (lk : Nat) : State :=
  if fld p.hdr 29 3 ≤ 1 then endTag s l p
  else { s with packets := s.packets ++ [{ p with hdr := popEntry p.hdr, src := lk }] }

/-- A packet at a lock-keeper that its access table, or that of the port it acts on, refuses: the collective ends with
ACCESS_DENIED on every rank (R346, log 58). -/
def refusePkt (s : State) (l : Launch) (p : Packet) : State := failSeq (dropPkt s p) l.id 0x338 (pktSeq p.hdr) 3

/-- REDUCE at a lock-keeper (R249). -/
def hopReduce (s : State) (l : Launch) (p : Packet) (lk : Nat) : State :=
  let t := dropPkt s p
  let k := t.keeper lk
  let old := k.accs.find? (fun a => a.isKey p)
  if foldBad old p.hdr then planFault t l.id (pktSeq p.hdr) lk
  else
    let a0 : Accum := old.getD
      { launch := p.launch, seq := pktSeq p.hdr, chunk := BitVec.ofNat 16 (fld p.hdr 112 16),
        dev := BitVec.ofNat 16 (entDev (pktEntry p.hdr 0)), core := BitVec.ofNat 13 (entCore (pktEntry p.hdr 0)),
        hdr := p.hdr, high := none, data := [], held := [] }
    let a := foldInto a0 p
    let folded := (a0.held ++ [p]).filter (fun q => !a.held.contains q)
    let rest := k.accs.filter (fun b => !b.isKey p)
    let full := a.high == some (fld p.hdr 84 10)
    let t1 := spillFix (t.setKeeper lk { k with accs := if full then rest else rest ++ [a] }) lk l
    let t2 := if full then passOn t1 l ⟨fullRange a.hdr, a.data, p.launch, lk, l.rank, 0, .data⟩ lk else t1
    folded.foldl (fun s q => endTag s l q) t2

/-- DELIVER at a lock-keeper (R248, R254, R255): nothing is written before every rank has joined and been compared. -/
def hopDeliver (s : State) (l : Launch) (p : Packet) (lk : Nat) : State :=
  let e := pktEntry p.hdr 0
  let c := ctxOfPos (entCore e)
  let seq := pktSeq p.hdr
  match (s.core (c / 4)).cmds.find? (fun k => k.c == c && k.port == 0x338 && k.task.launch == l.id && k.hasJoined &&
      descSeq k.info == seq) with
  | none => holdPkt s p lk l
  | some k =>
    let d := k.info
    let n := p.payload.length
    let off := 64 * entArg e
    if fld d 8 5 != fld p.hdr 24 5 || fld d 4 2 != fld p.hdr 22 2 || fld d 192 10 != fld p.hdr 84 10 then
      cancelSeq s l.id 0x338 seq
    else if descDst d < off + n then planFault s l.id seq lk
    else if !s.admits (c / 4) (400 + lk) l.spid true then refusePkt s l p
    else
      let r := k.ranges.getLast?.getD (0, 0)
      if !s.allJoined l.id 0x338 seq || !s.tileFree (c / 4) k (r.1 + off) n then holdPkt s p lk l
      else
        let t := (dropPkt s p).updCore (c / 4) (fun q => q.putTile (r.1 + off) p.payload)
        settleColl (passOn (t.updCmd (c / 4) k.id (fun m => { m with delivered := m.delivered + n })) l p lk) l.id seq

/-- SIGNAL at a lock-keeper (R248). -/
def hopSignal (s : State) (l : Launch) (p : Packet) (lk : Nat) : State :=
  let e := pktEntry p.hdr 0
  let die := ctxOfPos (entCore e) / 4 / 96
  let off := 8 * fld e 0 23
  let t := dropPkt s p
  if s.wharfOut l.id die off 8 then planFault t l.id (pktSeq p.hdr) lk
  else if !s.admits (392 + die) (400 + lk) l.spid true then refusePkt s l p
  else passOn ((increment t die off (if bit e 29 then pktBytes p.hdr else 1)).getD t) l p lk

/-- The lock-keeper that acts on a packet's entry 0 (R241). -/
def hopKeeper (p : Packet) : Nat := homeOf (ctxOfPos (entCore (pktEntry p.hdr 0)) / 4)
/-- An older packet from the same lock-keeper to the same one, or to the same device, is still on its way (R248). -/
def State.hopBehind (s : State) (l : Launch) (p : Packet) : Bool :=
  let place (q : Packet) : Nat × Nat :=
    let dev := entDev (pktEntry q.hdr 0)
    (dev, if dev = l.rank then hopKeeper q else 0)
  (s.packets.takeWhile (· != p)).any (fun q => !isBlock q && q.note == .data && q.launch == p.launch && q.src == p.src &&
    place q == place p)

/-- The hart of a lock-keeper. -/
def State.hart (s : State) (lk hart : Nat) : Hart := NMap.get Hart.init (s.keeper lk).harts hart
/-- The state with a hart replaced. -/
def State.setHart (s : State) (lk hart : Nat) (h : Hart) : State :=
  let k := s.keeper lk
  s.setKeeper lk { k with harts := NMap.put k.harts hart h }
/-- The lock-keeper holds the launch's firmware (R242, R246). -/
def State.holdsFw (s : State) (l : Launch) (lk : Nat) : Bool :=
  match l.hart with
  | some h => (s.hart lk h).launch == some l.id
  | none => false

/-- A collective packet at a place of this device. -/
def hopHere (s : State) (l : Launch) (pkt : Packet) : State :=
  let h := pkt.hdr
  let e := pktEntry h 0
  let seq := pktSeq h
  if l.closedSeq.contains seq || fld h 29 3 == 0 || pkt.payload.length != pktBytes h then dropPkt s pkt
  else if s.packets.contains pkt && s.hopBehind l pkt then s
  else if entDev e != l.rank then
    match s.leave l (pkt.src / 6) (entDev e) (pktSlots pkt) (.pkt pkt) with
    | some t => dropPkt t pkt
    | none => s
  else
    let lk := hopKeeper pkt
    let from' := if pkt.src < 24 then pkt.src else lk
    if !s.holdsFw l lk then dropPkt s pkt
    else if s.cutOff (from' / 6) (lk / 6) then failSeq (dropPkt s pkt) l.id 0x338 seq 5
    else if (s.keeper lk).stopped then failSeq (dropPkt s pkt) l.id 0x338 seq 5
    else if entBad e then planFault (dropPkt s pkt) l.id seq lk
    else if !s.admits (396 + lk) (400 + from') l.spid true then refusePkt s l pkt
    else match entKind e with
      | 1 => hopReduce s l pkt lk
      | 3 => hopDeliver s l pkt lk
      | 5 => hopSignal s l pkt lk
      | _ => passOn (dropPkt s pkt) l pkt lk

/-! ## What other devices tell (log 57) -/

/-- The window in which this device sees the memory of a rank of a launch (R332, R377). -/
def Launch.peerBase (l : Launch) (dev : Nat) : Option Nat :=
  (l.routes.find? (fun e => e.1 == dev && bit e.2 70)).map (fun e => 2 ^ 45 + fld e.2 64 6 * 2 ^ 39)
/-- The answer to another device's record or store goes back from lock-keeper `farKeeper`, or waits for its slots (R227). -/
def State.reply (s : State) (l : Launch) (dev slots : Nat) (p : Packet) : Option State := s.leave l (farKeeper / 6) dev slots (.pkt p)

/-- What another device tells this one of a collective, an exchange, a batch or a store of its own. One that has to wait stands
among the packets until its turn. -/
def takeNote (s : State) (l : Launch) (p : Packet) : State :=
  let seq := pktSeq p.hdr
  let t := dropPkt s p
  let wait : State := if s.packets.contains p then s else { s with packets := s.packets ++ [p] }
  let sleep (pa : Nat) : State := if s.asleep pa then wait.holdFor pa (.note p) else wait
  match p.note with
  | .data | .failed _ | .waits _ _ => s
  | .joined port rank ctx info ranks =>
    let u := enterSeq t l.id port seq ⟨rank, p.dev, ctx.toNat, info, ranks, none⟩ none
    if port = 0x338 then settleColl u l.id seq else settleAq u l seq
  | .ended port code fault =>
    if code = 7 then (if fault then (cancelHere t l.id port seq).updLaunch l.id Launch.taintOnly else cancelHere t l.id port seq)
    else if (if port = 0x338 then l.closedSeq else l.closedAq).contains seq then t
    else failHere t l.id port seq code
  | .failing code =>
    if l.closedAq.contains seq || (t.seqs.any (fun r => r.isFor l.id 0x350 seq && r.failed.any (· != 0)) &&
        !t.seqs.any (fun r => r.isFor l.id 0x350 seq && r.failed.isNone)) then t
    else failAq (noteFailing t l.id seq p.dev code) l seq code
  | .through rank code => settleAq (throughAq t l seq rank code false) l seq
  | .gone tag => endTagHere t l.id tag
  | .landed rank off n code =>
    match t.aqCmd l.id seq (fun k => mapRank k.info == blkSender p.hdr) with
    | some e => settleAq (landedAq t e.1 e.2.id rank off n code) l seq
    | none => t
  | .record core id i op pa b e =>
    match serveRecord t l.spid op pa b e with
    | some (u, code, old) => (u.reply l p.dev 1 ⟨p.hdr, [], l.id, farKeeper, l.rank, 0, .recorded core id i code old⟩).getD wait
    | none => sleep pa
  | .recorded core id i code old => (endRecord t core id i code old).getD (sleep (s.returnPlace core id i))
  | .store from' id sec pa =>
    let back (u : State) (code : Nat) : State :=
      (u.reply l p.dev 1 ⟨p.hdr, p.payload, l.id, farKeeper, l.rank, 0, .stored from' id sec pa code⟩).getD wait
    if inPeer pa then t.putMem pa p.payload
    else if inHbm pa && t.cutOff (farKeeper / 6) (stackOf pa / 2) then back t 5
    else if !inHbm pa || !t.admits (targetOf pa) (400 + farKeeper) l.spid true || (t.tagOf pa).isSome then back t 3
    else if t.asleep pa then sleep pa
    else back (t.putMem pa p.payload) 0
  | .stored from' id sec pa code =>
    if !t.storeOut from' id sec then t else
    let seen := if code = 0 then (match l.peerBase p.dev with | some b => t.putMem (b + pa) p.payload | none => t) else t
    endStore seen from' id sec code

/-- What another device has sent for a launch that is not here, or no more: an access is refused, since no table names its space
(R346, R349), and an exchange that fails there has been abandoned here (R268). -/
def refuseAway (s : State) (p : Packet) : State :=
  let rank := match s.launchOf p.launch with | some l => l.rank | none => 65535
  if p.dev = rank then s
  else match p.note with
  | .record core id i _ _ _ _ => s.note p.launch rank p.dev p.hdr (.recorded core id i 3 0)
  | .store from' id sec pa => s.note p.launch rank p.dev p.hdr (.stored from' id sec pa 3)
  | .failing _ => let me := entDev (pktEntry p.hdr 0)
    if rank = 65535 ∧ me ≠ p.dev then s.note p.launch me p.dev p.hdr (.failing 6) else s
  | _ => s

/-- PACKET_HOP: a packet reaches the home lock-keeper of its entry 0, or leaves for another device (R248); or another device
tells this one something. A packet of this device stands somewhere in it. -/
def execPacketHop (pkt : Packet) (s : State) : Host.Outcome State Fault Refusal :=
  match s.launchOf pkt.launch with
  | none => .next (refuseAway (dropPkt s pkt) pkt)
  | some l =>
    if pkt.note ≠ .data then .next (if pkt.dev = l.rank then s else takeNote s l pkt)
    else if isBlock pkt then .next s
    else if s.hasPkt pkt then .next (hopHere s l pkt)
    else if pkt.src < 24 ∨ entDev (pktEntry pkt.hdr 0) ≠ l.rank then .next s
    else .next (hopHere { s with packets := s.packets ++ [pkt] } l pkt)

/-! ## The firmware's interface (R242 to R245) -/

/-- LKSELF: device rank, die and port (R242). -/
def lkSelf (lk rank : Nat) : Word := BitVec.ofNat 64 (rank * 2 ^ 32 + lk / 6 * 2 ^ 9 + lk % 6)
/-- What a hart's load of n bytes reads; none is an access fault (R242, R243). -/
def State.hartLoad (s : State) (lk hart addr n : Nat) : Option Nat :=
  let h := s.hart lk hart
  let rank := match h.launch.bind s.launchOf with | some l => l.rank | none => 0
  let reg (a : Nat) (w : Word) : Option Nat :=
    if a ≤ addr ∧ addr + n ≤ a + 8 then some (w.toNat / 2 ^ (8 * (addr - a)) % 2 ^ (8 * n)) else none
  if addr + n ≤ 0x20000 then some (Mem.readLE h.fw addr n)
  else if 0x110000 ≤ addr ∧ addr + n ≤ 0x114000 then
    let bytes := (List.range 256).flatMap (fun j =>
      leBytes 64 (((List.range h.ring.length).find? (fun i => (h.head.toNat + 2 ^ 32 - h.ring.length + i) % 256 == j)).elim 0
        (fun i => (h.ring.getD i 0).toNat)))
    some (leAt bytes (addr - 0x110000) n)
  else if 0x200000 ≤ addr ∧ addr + n ≤ 0x300000 then some (Mem.readLE h.rt (addr - 0x200000) n)
  else firstSome [reg 0x100000 (h.head.setWidth 64), reg 0x100008 (h.tail.setWidth 64), reg 0x100010 0, reg 0x100018 h.emitted,
    reg 0x100020 (lkSelf lk rank)]

/-- The ring takes the commands that wait, as far as it has room (R242, R244). -/
def Hart.refill (h : Hart) : Hart :=
  (h.waiting.take (256 - (h.head - h.tail).toNat)).foldl (fun (h : Hart) e => h.post e.1 e.2)
    { h with waiting := h.waiting.drop (256 - (h.head - h.tail).toNat) }

/-- The pending command of a lock-keeper's cores that an emit names (R244, R245). -/
def State.emitCmd (s : State) (lk : Nat) (launch : Word) (id : Nat) : Option (Nat × Cmd) :=
  (s.allCmds.find? (fun k => homeOf (k.c / 4) == lk && k.port == 0x338 && k.task.launch == launch && k.fin.isNone && k.ended.isNone &&
    k.hasJoined && k.id % 2 ^ 32 == id)).map (fun k => (k.c / 4, k))

/-- An entry names a core of a rank of the command's table; a DELIVER its context, within the destination (R245). -/
def emitEntryBad (k : Cmd) (h : BitVec 512) (e : Word) : Bool :=
  let named (r : BitVec 32) (bits : Nat) : Bool := fld r 13 16 == entDev e && r.toNat % 2 ^ bits == entCore e % 2 ^ bits
  entBad e ||
  (if entKind e = 3 then
    !((List.range k.ranks.length).any (fun r => named (k.ranks.getD r 0) 13 &&
      decide (64 * entArg e + pktBytes h ≤
        collDst (fld k.info 0 3) (descB k.info) (fld k.info 192 10 + 1) r (fld k.info 212 10))))
   else !(k.ranks.any (fun r => named r 11)))

/-- An emit record breaks R245 for its command. -/
def emitBad (k : Cmd) (r : BitVec 640) : Bool :=
  let h : BitVec 512 := BitVec.ofNat 512 (fld r 0 512)
  let src := fld r 544 16
  let rank := fld k.info 202 10
  let n := fld h 29 3
  fld r 560 80 != 0 || pktSeq h != descSeq k.info || fld h 24 5 != fld k.info 8 5 || fld h 22 2 != fld k.info 4 2 ||
  fld h 84 10 != fld k.info 192 10 || fld h 64 10 != rank || fld h 74 10 != rank || fld h 112 16 != src ||
  fld h 0 16 != 0 || fld h 94 18 != 0 || n == 0 || decide (6 < n) ||
  (List.range 6).any (fun e => decide (n ≤ e) && pktEntry h e != 0) ||
  (List.range n).any (fun e => emitEntryBad k h (pktEntry h e)) || decide (descSrc k.info < 64 * src + pktBytes h)

/-- The packet engine takes the emit record at an address of a hart's slot: an accepted one waits for the bytes of its payload
(R143, R245). A plan fault cancels the collective of the command that CMDID names, and that of the header's SEQ where it names
none: DESIGN CHOICE, since R245 does not say which SEQ a plan fault of an emit concerns (log 62). -/
def takeEmit (s : State) (lk hart : Nat) (launch : Word) (addr : Nat) : State :=
  let h := s.hart lk hart
  let r : BitVec 640 := BitVec.ofNat 640 (Mem.readLE h.fw addr 80)
  let hdr : BitVec 512 := BitVec.ofNat 512 (fld r 0 512)
  match s.emitCmd lk launch (fld r 512 32) with
  | none => planFault s launch (pktSeq hdr) lk
  | some (core, k) =>
    if emitBad k r then planFault s launch (descSeq k.info) lk
    else
      let tag := s.nextId + 1
      let t := { (s.setHart lk hart { h with emitted := h.emitted + 1 }) with nextId := tag + 1 }
      let q := t.keeper lk
      (t.setKeeper lk { q with emits := q.emits ++ [⟨core, k.id, hdr, tag⟩] }).updCmd core k.id (fun m =>
        { m with away := m.away ++ [tag] })
/-- An accepted emit reads its payload from the issuing core's tile SRAM, in its turn, and its packet goes (R143, R245, R255);
where that core's table refuses the lock-keeper, the collective ends with ACCESS_DENIED (R346, log 58). -/
def readEmit (s : State) (lk : Nat) (e : Emit) : State :=
  let q := s.keeper lk
  let t := s.setKeeper lk { q with emits := q.emits.filter (· != e) }
  match s.findCmd e.core e.cmd with
  | none => t
  | some k =>
    let at0 := fld e.hdr 112 16
    let off := (k.ranges.getD 2 (0, 0)).1 + 64 * at0
    let n := pktBytes e.hdr
    match s.launchOf k.task.launch with
    | none => t
    | some l =>
      if !(s.core e.core).cmds.any (fun m => m.id == k.id) || !s.tileFree e.core k off n then s
      else if !s.admits e.core (400 + lk) l.spid false then failSeq t l.id 0x338 (descSeq k.info) 3
      else if marksHit (s.core e.core).tmarks off n then failSeq t l.id 0x338 (descSeq k.info) 1
      else
        let u := t.updCmd e.core k.id (fun m => { m with done := m.done ++ (List.range (n / 64)).map (fun i => at0 + i) })
        { u with packets := u.packets ++ [⟨e.hdr, Mem.read (s.core e.core).tile off n, l.id, lk, l.rank, e.tag, .data⟩] }

/-- A hart's store of n bytes: to its slot, LKCMDTAIL or LKEMIT; none is an access fault (R242, R243). A store to a read-only place
changes nothing, a load of LKEMIT reads 0, and an LKEMIT write that is no multiple of 16 or whose record runs past the slot has no
effect: DESIGN CHOICE, since R242 says nothing of these (log 62). -/
def State.hartStore (s : State) (lk hart addr n v : Nat) : Option State :=
  let h := s.hart lk hart
  if addr + n ≤ 0x20000 then some (s.setHart lk hart { h with fw := Mem.writeLE h.fw addr n v })
  else if addr = 0x100008 then some (s.setHart lk hart ({ h with tail := BitVec.ofNat 32 v } : Hart).refill)
  else if addr = 0x100010 then
    some (match h.launch with
      | some launch => if v % 16 != 0 || decide (131072 < v + 80) then s else takeEmit s lk hart launch v
      | none => s)
  else if (s.hartLoad lk hart addr n).isSome then some s
  else none

/-- LKEMIT: the hart writes the address of an emit record; `rec` is what its own stores have put there (R245). -/
def execLkemit (lk hart : Nat) (addr : Word) (rec : BitVec 640) (s : State) : Host.Outcome State Fault Refusal :=
  let h := s.hart lk hart
  if h.launch.isNone || h.stopped || addr.toNat % 16 != 0 || decide (131072 - 80 < addr.toNat) then .next s
  else .next (((s.hartStore lk hart addr.toNat 80 rec.toNat).bind (fun t => t.hartStore lk hart 0x100010 8 addr.toNat)).getD s)

/-- LKCMDTAIL: the firmware has consumed records; waiting commands enter the ring (R242). -/
def execLkcmdtail (lk hart : Nat) (val : Word) (s : State) : Host.Outcome State Fault Refusal :=
  let h := s.hart lk hart
  if h.launch.isNone || h.stopped then .next s
  else .next ((s.hartStore lk hart 0x100008 8 val.toNat).getD s)

/-- Every pending collective of a launch whose home is a lock-keeper is a plan fault (R243). -/
def faultAll (s : State) (lk : Nat) (launch : Word) : State :=
  let seqs := (s.allCmds.filterMap (fun k =>
    if homeOf (k.c / 4) = lk ∧ k.port = 0x338 ∧ k.task.launch = launch ∧ k.fin = none ∧ k.hasJoined then some (descSeq k.info)
    else none)).eraseDups
  seqs.foldl (fun s q => planFault s launch q lk) s

/-- HART_EXCEPTION: with mtvec 0 the hart stops; otherwise it goes on at its own handler (R243). -/
def execHartException (lk hart : Nat) (mtvecZero : Bool) (s : State) : Host.Outcome State Fault Refusal :=
  let h := s.hart lk hart
  match h.launch with
  | none => .next s
  | some launch =>
    if mtvecZero && !h.stopped then .next (faultAll (s.setHart lk hart { h with stopped := true }) lk launch)
    else .next s

end Sys2Proof.Machine
end

