-- ==== Sys2Proof/Machine/Ctl.lean ====
section
/-! DEFINITION. Control flow, loops, tags, system registers, fences and the system triggers (R62 to R74, R331). Every
effect here comes after the moves of its group: the step executes a group's ctl trigger last. -/

namespace Sys2Proof.Machine

/-! ## Branches and calls (R64, R68) -/

/-- Body length of loop level l in bundles; a stored 0 means 256 (R66). -/
def Ctx.loopLen (x : Ctx) (l : Nat) : Nat := let n := NMap.get 0 x.llen l; if n = 0 then 256 else n
/-- Start of loop level l. -/
def Ctx.loopStart (x : Ctx) (l : Nat) : Word := NMap.get 0 x.lstart l
/-- Counter of loop level l; the level is active where it is not zero. -/
def Ctx.loopCount (x : Ctx) (l : Nat) : BitVec 32 := NMap.get 0 x.lc l

/-- The next group begins at slot 0 of a bundle (R64). -/
def Ctx.goto (x : Ctx) (target : Word) : Ctx := { x with pc := target, slot := 0 }

/-- An active level whose body does not hold the target becomes inactive (R68). -/
def Ctx.leaveLoops (x : Ctx) (target : Word) : Ctx :=
  { x with lc := (List.range 3).foldl (fun m l =>
      if (target - x.loopStart l).toNat ≤ 32 * (x.loopLen l - 1) then m
      else if NMap.get 0 m l = 0 then m else NMap.put m l 0) x.lc }

/-- B + 32 × signed(a), modulo 2^64 (R64). -/
def State.relTarget (s : State) : Word := s.iss.bundle + (s.cx.aS 14 <<< 5)

/-- ctl.jmp (R64). -/
def execCtlJmp (g : BitVec 4) (src : BitVec 10) (s : State) : Host.Outcome State Fault Refusal :=
  let a := s.cx.aS 14
  trigger s g src [] [chk (a.toNat % 32 != 0) (s.own 0x0C)] (fun t => t.setCx ((t.cx.leaveLoops a).goto a))

/-- ctl.br (R64). -/
def execCtlBr (g : BitVec 4) (src : BitVec 10) (s : State) : Host.Outcome State Fault Refusal :=
  trigger s g src [] [] (fun t => t.setCx ((t.cx.leaveLoops t.relTarget).goto t.relTarget))

/-- ctl.call (R64). -/
def execCtlCall (g : BitVec 4) (src : BitVec 10) (s : State) : Host.Outcome State Fault Refusal :=
  let a := s.cx.aS 14
  trigger s g src [] [chk (a.toNat % 32 != 0) (s.own 0x0C)]
    (fun t => (t.setCx (t.cx.goto a)).landS 1 0x09C t.iss.after)

/-- ctl.callr (R64). -/
def execCtlCallr (g : BitVec 4) (src : BitVec 10) (s : State) : Host.Outcome State Fault Refusal :=
  trigger s g src [] [] (fun t => (t.setCx (t.cx.goto t.relTarget)).landS 1 0x09C t.iss.after)

/-! ## Ending and trapping (R71, R72) -/

/-- ctl.end (R72). -/
def execCtlEnd (g : BitVec 4) (src : BitVec 10) (s : State) : Host.Outcome State Fault Refusal :=
  trigger s g src [] [] (fun t => endTask t t.iss.c)

/-- ctl.sys: SYSCALL after the group (R71). -/
def execCtlSys (g : BitVec 4) (src : BitVec 10) (s : State) : Host.Outcome State Fault Refusal :=
  trigger s g src [] [] (fun t => trapAfter t 0x11 (t.cx.aS 14))

/-- ctl.brk: BREAK after the group (R71). -/
def execCtlBrk (g : BitVec 4) (src : BitVec 10) (s : State) : Host.Outcome State Fault Refusal :=
  trigger s g src [] [] (fun t =>
    let u := trapAfter t 0x12 (t.cx.aS 14)
    if bit (NMap.get 0 u.mr 0x400) 0 then { u with msix := u.msix ++ [3] } else u)

/-! ## Markers and fences (R73, R74, R174, R175) -/

/-- A fence at a scope: it enters both queues and holds the next group. -/
def Ctx.fenceAt (x : Ctx) (id scope : Nat) (space : Option Nat) : Ctx :=
  { x.enqMark .fence id scope with fence := some (x.age, scope, space) }

/-- ctl.ifence: ctl.fence.core, and the bundles held are discarded (R73). -/
def execCtlIfence (g : BitVec 4) (src : BitVec 10) (s : State) : Host.Outcome State Fault Refusal :=
  trigger s g src [] [] (fun t => t.setCx { t.cx.fenceAt t.nextId 1 none with ibuf := [] })

/-- ctl.qmark: a marker in both queues (R74, R174). -/
def execCtlQmark (g : BitVec 4) (src : BitVec 10) (s : State) : Host.Outcome State Fault Refusal :=
  trigger s g src [] [] (fun t => t.setCx (t.cx.enqMark .marker t.nextId 0))

/-- The issuing core is a member of a group-table entry (R125, R289). -/
def State.isMember (s : State) (entry : Nat) : Bool :=
  match s.launchOf s.cx.launchId with
  | none => false
  | some l => l.groups.any (fun r => fld r 32 16 == entry && bit r (64 + s.iss.c / 4))

/-- ctl.fence.SCOPE (R74, R175, R191). -/
def execCtlFence (g : BitVec 4) (src : BitVec 10) (sc : BitVec 4) (s : State) : Host.Outcome State Fault Refusal :=
  let a := s.cx.aS 14
  trigger s g src [chk (decide (10 < sc.toNat)) s.cls2]
    [chk (sc == 5 && fld a 8 56 != 0) (s.own 1), chk (sc == 5 && !s.isMember (fld a 0 8)) (s.own 9)]
    (fun t => t.setCx (t.cx.fenceAt t.nextId sc.toNat none))

/-- ctl.quiesce: a quiesce of the named space begins, and the next group waits for it (R331). -/
def execCtlQuiesce (g : BitVec 4) (src : BitVec 10) (s : State) : Host.Outcome State Fault Refusal :=
  let a := s.cx.aS 14
  trigger s g src [] [chk (fld a 12 52 != 0 || fld a 0 12 == 0) (s.own 1), chk (s.cx.spid != 0) (s.own 9)]
    (fun t =>
      let t1 := t.setCx (t.cx.fenceAt t.nextId 1 (some (fld a 0 12)))
      { t1 with quiescing := if t1.quiescing.contains (fld a 0 12) then t1.quiescing else t1.quiescing ++ [fld a 0 12] })

/-! ## Loops (R66, R67) -/

/-- ctl.loopL (R66); level 3 is a reserved code. -/
def execCtlLoop (g : BitVec 4) (src : BitVec 10) (l : BitVec 2) (s : State) : Host.Outcome State Fault Refusal :=
  trigger s g src [chk (l == 3) s.cls2] [] (fun t =>
    let x := t.cx
    let n : BitVec 32 := (x.aS 14).setWidth 32
    let b := x.bS 14
    let k := l.toNat
    let y := { x with
      lstart := NMap.put x.lstart k t.iss.after
      llen := NMap.put x.llen k (fld b 0 8)
      ldrain := NMap.put x.ldrain k (BitVec.ofNat 8 (fld b 8 8))
      lc := NMap.put x.lc k n
      sp := if bit b 16 then 1 else x.sp }
    t.setCx (y.goto (if n = 0 then t.iss.after + BitVec.ofNat 64 (32 * y.loopLen k) else t.iss.after)))

/-- ctl.loopendL (R67). -/
def execCtlLoopend (g : BitVec 4) (src : BitVec 10) (l : BitVec 2) (s : State) : Host.Outcome State Fault Refusal :=
  trigger s g src [chk (l == 3) s.cls2] [] (fun t =>
    let x := t.cx
    let k := l.toNat
    let n := x.loopCount k
    if n = 0 then t.setCx { x with sp := x.sp <<< 1 }
    else
      let drain := NMap.get 0 x.ldrain k
      let y := { x with
        sp := (x.sp <<< 1) ||| (if drain.toNat < (n - 1).toNat then 1 else 0)
        lc := NMap.put x.lc k (n - 1) }
      t.setCx (if n - 1 = 0 then y else y.goto (x.loopStart k)))

/-! ## Tags (R69) -/

/-- ctl.retag: the four checks, the freeze on a scoreboard bit, then the tag. The checks of the group come before any acceptance
(R381), so a copy that the group itself begins does not hold the plane yet (R164). -/
def execCtlRetag (g : BitVec 4) (src : BitVec 10) (s : State) : Host.Outcome State Fault Refusal :=
  let a := s.cx.aS 14
  let b := s.cx.bS 14
  let x := s.cx
  let kind := fld a 8 2
  let i := fld a 0 7
  let isV := decide (0x40 ≤ i) && decide (i ≤ 0x5F)
  let range := (kind == 0 && (isV || (decide (0x78 ≤ i) && decide (i ≤ 0x7B)))) || (kind == 1 && decide (i < 64)) ||
    (kind == 2 && decide (i < 32))
  let outside := (kind == 0 && isV && !(decide (x.vbase ≤ i - 0x40) && decide (i - 0x40 < x.vbase + x.vcount))) ||
    (kind == 1 && (x.window i).isNone) || (kind == 2 && !x.planes.getLsbD i)
  let fmt := Fmt.ofCodeRaw (fld b 0 5)
  trigger s g src []
    [chk (fld a 10 54 != 0 || bit a 7 || kind == 3 || decide (31 < b.toNat) || !range) (s.own 1), chk outside (s.own 9),
     chk (decide (16 ≤ fld b 0 5) || (fmt.isKB && kind != 1)) (s.own 3),
     chk (kind == 2 && x.copyHeld.getLsbD i && !(s.freshCopies s.iss.c).contains i) (s.own 0x0E),
     chk (kind == 1 && x.scoreboard s.ck s.iss.gid i) (s.freezeAt 8)]
    (fun t =>
      let y := t.cx
      if kind = 1 then t.setCx { y with ttag := NMap.put y.ttag i fmt }
      else if kind = 2 then t.setCk { t.ck with planes := NMap.put t.ck.planes i { NMap.get Plane.init t.ck.planes i with tag := fmt } }
      else if isV then t.setCx { y with v := NMap.put y.v (i - 0x40) { y.vreg (i - 0x40) with tag := fmt } }
      else t.setCx { y with ps := NMap.put y.ps (i - 0x78) { y.psum (i - 0x78) with tag := fmt } })

/-! ## System registers (R70, R315) -/

/-- The value of a system register that can be read, none for a reserved number. -/
def State.sysReg (s : State) (n : Nat) : Option Word :=
  let x := s.cx
  if n = 0 then some (BitVec.ofNat 64 x.taskIx)
  else if n = 1 then some x.launchId
  else if n = 2 then some (match s.launchOf x.launchId with
    | some l => BitVec.ofNat 64 (l.variant % 4 * 65536 + l.phase % 65536)
    | none => 0)
  else if n = 3 then some (x.budget.setWidth 64)
  else if n = 4 then some (BitVec.ofNat 64 x.spid)
  else if n = 8 then some (x.sp.setWidth 64)
  else if 9 ≤ n ∧ n ≤ 11 then some ((x.loopCount (n - 9)).setWidth 64)
  else if 0x100 ≤ n ∧ n ≤ 0x105 then some (NMap.get 0 x.trec (n - 0x100))
  else if n = 0x106 then some (x.lclk - x.ckpt)
  else none

/-- ctl.rdsr: the register as it stands at step 3, at +1 (R70). -/
def execCtlRdsr (g : BitVec 4) (src : BitVec 10) (s : State) : Host.Outcome State Fault Refusal :=
  let a := s.cx.aS 14
  trigger s g src [] [chk (fld a 12 52 != 0 || (s.sysReg (fld a 0 12)).isNone) (s.own 1)]
    (fun t => t.landS 1 0x09C ((s.sysReg (fld a 0 12)).getD 0))

/-- ctl.wrsr: only STAGE and LC0 to LC2 can be written (R70). -/
def execCtlWrsr (g : BitVec 4) (src : BitVec 10) (s : State) : Host.Outcome State Fault Refusal :=
  let a := s.cx.aS 14
  let n := fld a 0 12
  trigger s g src [] [chk (fld a 12 52 != 0 || decide (n < 8) || decide (11 < n)) (s.own 1)]
    (fun t =>
      let x := t.cx
      if n = 8 then t.setCx { x with sp := (x.bS 14).setWidth 8 }
      else t.setCx { x with lc := NMap.put x.lc (n - 9) ((x.bS 14).setWidth 32) })

end Sys2Proof.Machine
end

