-- ==== Sys2Proof/Machine/Landing.lean ====
section
/-! DEFINITION. What lands at the start of a logical cycle: step 1 of R15, the landing traps of R312, and the freeze
that waits for an item due (R16, R135 to R137, R163, R198, R223, R236, R237, R381 stage 2). -/

namespace Sys2Proof.Machine

/-- Items of the snapshot buffer that are due at the context's cycle. -/
def Ctx.dueItems (x : Ctx) : List Flight := x.snap.filter (fun f => decide (f.due.toNat ≤ x.lclk.toNat))

/-- The k-th message from the source of a claim, where the inlet holds it (R223). -/
def Ctx.claimMsg (x : Ctx) (src : Word) (k : Nat) : Option Msg :=
  (x.inlet.find? (fun e => e.1 == k && msgKey e.2 == srcKey src)).map (fun e => e.2)

/-- The item is not present (R381 stage 2): no reply in the berth, no answer of the Wharf, no message for the claim. -/
def Ctx.absentItem (x : Ctx) (f : Flight) : Bool :=
  match f.item with
  | .berth _ _ r _ => r == .absent || r == .again
  | .wharf _ _ a _ => a == .absent
  | .claim src k _ => (x.claimMsg src k).isNone
  | _ => false

/-- Wharf operations that wait on other programs, which no timeout bounds (R199, R215). -/
def waitsOnPrograms (port : Nat) : Bool := port == 0x31C || port == 0x31E || port == 0x31F || port == 0x328

/-- An absent item that makes the freeze an endpoint freeze (R215, R217). -/
def Ctx.absentEndpoint (x : Ctx) (f : Flight) : Bool :=
  x.absentItem f && (match f.item with
    | .berth _ _ _ _ => true
    | .wharf p _ _ _ => !waitsOnPrograms p
    | _ => false)

/-- A landing trap: the item that decides, its kind (0 berth, 1 drain, beat or Wharf reply, 2 claim), cause and detail. -/
structure LandTrap where
  fid : Nat
  kind : Nat
  cause : BitVec 8
  d0 : Word
  d1 : Word
  deriving DecidableEq, Repr

/-- The fault that a berth due takes (R137). -/
def berthTrap (f : Flight) : Option LandTrap :=
  match f.item with
  | .berth _ _ (.fault cause addr _) _ => some ⟨f.fid, 0, cause, addr, if cause = 0x10 then 1 else 0⟩
  | _ => none
/-- TAINT_CONSUMED of a drain from a tainted plane (R167). -/
def drainTrap (k : Core) (f : Flight) : Option LandTrap :=
  match f.item with
  | .drain w _ false =>
    if (k.plane (wPlane w)).taint then some ⟨f.fid, 1, 0x10, BitVec.ofNat 64 (wPlane w), 2⟩ else none
  | _ => none
/-- TAINT_CONSUMED of a Weir beat while the taint bit is set, by itself or before (R239). -/
def wbeatTrap (x : Ctx) (f : Flight) : Option LandTrap :=
  match f.item with
  | .wbeat _ _ bad false => if bad || x.wtaint then some ⟨f.fid, 1, 0x10, 0, 3⟩ else none
  | _ => none
/-- COUNTER_ARMED of a refused Wharf operation (R200, R210); ACCESS_DENIED of one that the Wharf's access table refuses (R346). -/
def wharfTrap (f : Flight) : Option LandTrap :=
  match f.item with
  | .wharf p addr (.refused _) _ => some ⟨f.fid, 1, 0x0F, addr, BitVec.ofNat 64 p⟩
  | .wharf _ _ .denied _ => some ⟨f.fid, 1, 0x09, 0, 0⟩
  | _ => none
/-- TIMESTAMP_MISMATCH of a claim, with the detail of R224. -/
def claimTrap (x : Ctx) (f : Flight) : Option LandTrap :=
  match f.item with
  | .claim src k recv =>
    match x.claimMsg src k with
    | some m =>
      if m.stamp = recv.setWidth 32 then none
      else some ⟨f.fid, 2, 0x07, BitVec.ofNat 64 (fld recv 0 32 + m.stamp.toNat * 2 ^ 32),
        BitVec.ofNat 64 (fld src 0 13 + fld recv 44 6 * 2 ^ 22 + fld src 32 16 * 2 ^ 32)⟩
    | none => none
  | _ => none

/-- The landing trap of the context's cycle, in the order of R312. -/
def landTrap (s : State) (c : Nat) : Option LandTrap :=
  let x := s.ctx c
  let l := x.dueItems
  firstSome (l.map berthTrap ++ l.map (drainTrap (s.core (c / 4))) ++ l.map (wbeatTrap x) ++ l.map wharfTrap ++
    l.map (claimTrap x))

/-- What taking a landing trap does to its item: a berth is reissued on return (R137) or lands its stored bytes on return
(R352), a drain, beat or refused operation lands on return. -/
def trappedItem (i : Item) : Item :=
  match i with
  | .berth a w (.fault cause _ bs) t => .berth a w (if cause = 0x10 then .data bs else .again) t
  | .drain w m _ => .drain w m true
  | .wbeat r i b _ => .wbeat r i b true
  | .wharf p a (.refused w) t => .wharf p a (.ok w) t
  | .wharf _ a .denied t => .wharf 0x311 a (.ok 0) t
  | i => i

/-- The landing trap is taken (R312, R314): before the group, at the landing cycle; nothing lands. -/
def takeLandTrap (s : State) (c : Nat) (t : LandTrap) : State :=
  let x := s.ctx c
  let bad := x.snap.any (fun f => f.fid == t.fid && match f.item with | .wbeat _ _ b _ => b | _ => false)
  let s1 := s.setCtx c { x with
    wtaint := x.wtaint || bad
    snap := x.snap.map (fun f => if f.fid = t.fid then { f with item := trappedItem f.item } else f) }
  let s2 := if t.kind = 0 ∧ t.cause = 0x10 then s1.taintOf c 0x10
    else if t.cause = 0x10 ∧ t.d1 = 3 ∧ bad then s1.updLaunch x.launchId Launch.taintOnly else s1
  trapHere s2 c t.cause t.d0 t.d1 true 0 x.pc x.slot

/-! ## Landing one item -/

/-- A value lands in a result port or a register (R16, R329). -/
def Ctx.landResult (x : Ctx) (dst : Nat) (v : PVal) : Ctx :=
  if dst < 0x40 then (match v with | .s w => if dst = 0 then x else { x with x := NMap.put x.x dst w } | .v _ => x)
  else if dst < 0x60 then (match v with | .v w => { x with v := NMap.put x.v (dst - 0x40) w } | .s _ => x)
  else if dst < 0x80 then x
  else if dst % 2 = 0 then { x with resQ := NMap.put x.resQ ((dst - 0x80) / 2) v }
  else { x with resQ2 := NMap.put x.resQ2 ((dst - 0x80) / 2) v }

/-- The value that a berth's bytes make (R135). -/
def berthValue (w : Word) (bs : List Byte) : PVal :=
  if fld w 12 3 = 4 then .v ⟨lanesOfBytes 1024 bs, Fmt.ofCodeRaw (fld w 16 5), false⟩
  else
    let v : Word := BitVec.ofNat 64 (ofLE bs)
    .s (if bit w 15 then sext v (8 * berthSize w - 1) else v)

/-- An accumulation lands in its latch (R91). -/
def Ctx.landPs (x : Ctx) (n : Nat) (isMax : Bool) (acc : Fmt) (roots : NMap Lane) : Ctx :=
  let q := x.psum n
  let old (c : Nat) : Nat := if q.tag = acc then (lane q.row c).toNat else redId isMax acc
  { x with ps := NMap.put x.ps n ⟨lanesOf 64 (fun c => BitVec.ofNat 32 (redOp isMax acc (old c) (lane roots c).toNat)), acc⟩ }

/-- One item due lands in a context (R15 step 1). -/
def landItem (s : State) (c : Nat) (f : Flight) : State :=
  match f.item with
  | .result dst v => s.updCtx c (fun x => x.landResult dst v)
  | .psAcc n isMax acc roots => s.updCtx c (fun x => x.landPs n isMax acc roots)
  | .lsLoad a n sign => landLoad s c a n sign
  | .lsStore a n w => landStore s c a n w
  | .lsVld t a => landVld s c t a
  | .lsVst t a v => landVst s c t a v
  | .berth _ w (.data bs) _ => s.updCtx c (fun x => x.landResult (berthReg w) (berthValue w bs))
  | .berth _ _ _ _ => s
  | .beat p w rm cm a0 a1 af row f md bad => landBeat s c p w rm cm a0 a1 af row f md bad
  | .drain w cm _ => landDrain s c w cm
  | .wbeat r i _ _ => landWbeat s c r i
  | .wleaf w _ vals => landWleaf s c w vals
  | .wharf p _ a _ =>
    match a with
    | .ok w | .refused w =>
      if p = 0x311 ∨ p = 0x313 ∨ p = 0x31D then s else s.updCtx c (fun x => x.landResult 0x098 (.s w))
    | .absent | .denied => s
  | .claim src k recv =>
    s.updCtx c (fun x => match x.claimMsg src k with
      | some m =>
        { x with
          x := NMap.put x.x (fld recv 44 6) m.payload
          inlet := x.inlet.filter (fun e => !(e.1 == k && msgKey e.2 == srcKey src)) }
      | none => x)

/-- The item is a berth, or one that a saved image carried as a value for its register (R329). -/
def Flight.isBerth (f : Flight) : Bool :=
  match f.item with
  | .berth _ _ _ _ => true
  | .result dst _ => decide (dst < 0x60)
  | _ => false
/-- The item is a claim. -/
def Flight.isClaim (f : Flight) : Bool := match f.item with | .claim _ _ _ => true | _ => false
/-- A leaf gather whose read falls at the start of the context's cycle (R237). -/
def Ctx.leafReads (x : Ctx) (f : Flight) : Bool :=
  match f.item with
  | .wleaf _ _ none => decide (f.due.toNat ≤ x.lclk.toNat + 2)
  | _ => false

/-- Items of a list land, in the order they were fired; a leaf gather reads in its turn among the accesses of ls. -/
def landList (s : State) (c : Nat) : List Flight → State
  | [] => s
  | f :: t =>
    let r := match f.item with
      | .wleaf w i none =>
        if (s.ctx c).leafReads f then (performLeaf s c f.fid w i, { f with item := .wleaf w i (some (readLeaf s c w i)) }) else (s, f)
      | _ => (s, f)
    landList (if f.due.toNat ≤ (s.ctx c).lclk.toNat then landItem r.1 c r.2 else r.1) c t
/-- The items due that `p` selects land and leave the snapshot buffer; of the others that it selects, leaf gathers may read. -/
def landDue (s : State) (c : Nat) (p : Flight → Bool) : State :=
  let x := s.ctx c
  let due (f : Flight) : Bool := decide (f.due.toNat ≤ x.lclk.toNat)
  (landList s c (x.snap.filter (fun f => p f && (due f || x.leafReads f)))).updCtx c
    (fun y => { y with snap := y.snap.filter (fun f => !(p f && due f)) })

/-- The timeout mark of an item. -/
def Item.timed (i : Item) : Bool := match i with | .berth _ _ _ t => t | .wharf _ _ _ t => t | _ => false
/-- The item without its timeout mark. -/
def Item.settled (i : Item) : Item := match i with
  | .berth a w r _ => .berth a w r false | .wharf p a r _ => .wharf p a r false | i => i
/-- A landing ends a freeze that had timed out: one corrected event (R217, R350). -/
def noteTimed (s : State) (c : Nat) : State :=
  let x := s.ctx c
  if x.dueItems.any (fun f => f.item.timed) then
    (s.setCtx c { x with snap := x.snap.map (fun f =>
      if f.due.toNat ≤ x.lclk.toNat then { f with item := f.item.settled } else f) }).corrected 0x0E 0 x.launchId (c / 4)
  else s

/-- Step 1 of R15 for the berths and claims that are due: they land before results, in the order they were fired. -/
def landFirst (s : State) (c : Nat) : State :=
  landDue (noteTimed s c) c (fun f => f.isBerth || f.isClaim)
/-- Step 1 of R15 for everything else that is due, and the reads of leaf gathers. -/
def landRest (s : State) (c : Nat) : State :=
  landDue (noteTimed s c) c (fun f => !(f.isBerth || f.isClaim))

/-- Step 1 of R15, whole. -/
def landAll (s : State) (c : Nat) : State := landRest (landFirst s c) c

/-! ## The landing events -/

/-- A context with a started task that is not halted. -/
def Ctx.runs (x : Ctx) : Bool := x.stat == .ready

/-- A freeze behind the landing stage, or a fetch before it, holds the context's group: nothing changes (R216, R381). -/
def Ctx.stuck (x : Ctx) : Bool :=
  match x.frz with
  | some .fetch | some .engine | some .program => true
  | some .endpoint => x.frozenSend.isSome
  | some .await | none => false

/-- The landing stage of a context as far as one kind of item goes: nothing while an item due is absent or a freeze behind
the landing holds the group; the landing trap where it is of this kind; else the items of this kind land (R216, R312,
R381). -/
def landKind (s : State) (c kind : Nat) (land : State → State) : State :=
  let x := s.ctx c
  if !x.runs || x.stuck || x.dueItems.any x.absentItem then s
  else match landTrap s c with
    | some t => if t.kind = kind then takeLandTrap s c t else s
    | none => land s

/-- Where an item of a kind is due, the berths and claims due land together, in the order they were fired, since the later
fired of two for one register remains (R135, R223). -/
def landPair (s : State) (c : Nat) (p : Flight → Bool) : State :=
  if (s.ctx c).dueItems.any p then landFirst s c else s

/-- BERTH_LANDING: the berths due land, with the claims of their cycle, or the first of them that fails takes its fault (R135,
R137). -/
def execBerthLanding (c : Nat) (s : State) : Host.Outcome State Fault Refusal :=
  .next (landKind s c 0 (fun t => landPair t c Flight.isBerth))

/-- RECEIVE_LANDING: the claims due take their messages, with the berths of their cycle, or TIMESTAMP_MISMATCH (R223, R224). -/
def execReceiveLanding (c : Nat) (s : State) : Host.Outcome State Fault Refusal :=
  .next (landKind s c 2 (fun t => landPair t c Flight.isClaim))

/-- RESULT_LANDING: results, beats, drains and Wharf replies due land, after the berths and claims of the cycle; a drain or
beat of tainted data, or a refused operation, traps (R16, R167, R200, R239). -/
def execResultLanding (c : Nat) (s : State) : Host.Outcome State Fault Refusal :=
  .next (landKind s c 1 (fun t => landAll t c))

/-! ## ENDPOINT_TIMEOUT (R217) -/

/-- 1,000 ns of wall-clock time have passed since a freeze began: 1,200 cycles of 1.2 GHz. -/
def Ctx.frozenLong (x : Ctx) (wall : Nat) : Bool := match x.frozenAt with | some t => decide (t + 1200 ≤ wall) | none => false

/-- The detail words of a timeout on an item (R314). -/
def timeoutDetail (f : Flight) : Word × Word :=
  match f.item with
  | .berth a _ _ _ => (a, 1)
  | _ => (0, 2)
/-- The item has timed out: a berth is reissued on return (R137), a Wharf operation is not (R199). -/
def timedItem (i : Item) : Item :=
  match i with
  | .berth a w r _ => .berth a w r true
  | .wharf p a r _ => .wharf p a r true
  | i => i

/-- The timeout of a landing freeze: it names the earliest-issued endpoint item that is absent (R312, R314). -/
def landTimeout (s : State) (c : Nat) : Option State :=
  let x := s.ctx c
  match x.dueItems.find? x.absentEndpoint with
  | none => none
  | some f =>
    let d := timeoutDetail f
    let s1 := s.setCtx c { x with snap := x.snap.map (fun g =>
      if x.absentEndpoint g && decide (g.due.toNat ≤ x.lclk.toNat) then { g with item := timedItem g.item } else g) }
    some (trapHere s1 c 0x0B d.1 d.2 true 0 x.pc x.slot)

/-- ENDPOINT_TIMEOUT: an endpoint freeze of 1,000 ns raises the timeout at the frozen group: of an item due that is absent,
or of a syn.send that still finds no slot (R199, R217, R312). -/
def execEndpointTimeout (c : Nat) (s : State) : Host.Outcome State Fault Refusal :=
  let x := s.ctx c
  .next (if x.runs && x.frozenLong s.wall then
    match landTimeout s c with
    | some t => t
    | none => match x.frozenSend with
      | some (p, dev) => if s.sendFree c dev then s else trapHere s c 0x0B 0 3 false p x.pc x.slot
      | none => s
  else s)

end Sys2Proof.Machine
end

