-- ==== Sys2Proof/Machine/Group.lean ====
section
/-! DEFINITION. Bundles and groups: fetch (R23 to R28, R65), the shape of a group (R27), the dependences inside it (R35,
R36), the stages of R381 up to its issue, and the events BUNDLE_FETCH, DEADLINE, CHECKPOINT_OVERDUE and CONTEXT_HALT. -/

namespace Sys2Proof.Machine

/-! ## Fetch (R65) -/

/-- The fetch of the 32 bytes at an address: none where it has to wait. -/
def fetchAt (s : State) (c : Nat) (addr : Word) : Option Fetched × State :=
  let x := s.ctx c
  if 2 ^ 52 ≤ addr.toNat then (some (.fault 0x08), s)
  else match s.reach (c / 4) x.spid addr.toNat ⟨2, false⟩ with
  | .unmapped | .noMap => (some (.fault 0x08), s)
  | .denied => (some (.fault 0x09), s.fillTlb (c / 4) x.spid addr.toNat)
  | .expand => (none, s)
  | .at pa =>
    if s.asleep pa then (none, s.holdFor pa (.fetch c addr))
    else (some (.bundle (BitVec.ofNat 256 (Mem.readLE s.mem pa 32))), s.fillTlb (c / 4) x.spid addr.toNat)

/-- A fetch fault of the next group is taken (R65, R314); the bundle is fetched again on return. -/
def fetchTrap (s : State) (c : Nat) (cause : BitVec 8) (addr : Word) : State :=
  let x := s.ctx c
  let s1 := s.setCtx c { x with ibuf := x.ibuf.filter (fun e => match e.2 with | .fault _ => false | .bundle _ => true) }
  let s2 := if cause = 0x08 ∧ addr.toNat < 2 ^ 52 ∧ !s1.unmappable.contains (x.spid, addr.toNat / 65536) then
      s1.wantPage (c / 4) x.spid addr.toNat else s1
  trapHere s2 c cause addr 1 false 0 x.pc x.slot

/-- Stages 1 and 2 of R381 are passed: the group's bundles are there, or their fault is, every item due is present, and no
landing trap is due. -/
def State.atStage3 (s : State) (c : Nat) : Bool :=
  let x := s.ctx c
  x.runs && (match x.form with | .need _ => false | _ => true) && !x.dueItems.any x.absentItem && (landTrap s c).isNone

/-- What the group following a fence waits for (R175, R191, R331): older entries, older Wharf operations for whf and wider,
and the space that a quiesce names. -/
def State.fenceOpen (s : State) (c : Nat) : Bool :=
  match (s.ctx c).fence with
  | none => true
  | some (age, scope, space) =>
    (s.ctx c).drained age scope && (decide (scope < 6) || !s.wharfOlder c ((s.ctx c).task.getD ⟨0, 0⟩) age) &&
    (match space with | some p => !s.quiescing.contains p | none => true)

/-- BUNDLE_FETCH: the bundle that the context waits for arrives, or its fetch fails and the fault is taken when the group
comes to it (R65, R381). A context that ctl.ifence has left without bundles fetches none before its fence has performed,
so that the stores older than it are seen (R73). -/
def execBundleFetch (c : Nat) (addr : Word) (s : State) : Host.Outcome State Fault Refusal :=
  let x := s.ctx c
  if !x.runs || x.form != .need addr || (x.ibuf == [] && !s.fenceOpen c) then .next s
  else match fetchAt s c addr with
  | (none, s1) => .next s1
  | (some f, s1) =>
    let s2 := s1.updCtx c (fun y => { y with ibuf := y.ibuf ++ [(addr.toNat, f)] })
    match f with
    | .fault cause => .next (if s2.atStage3 c && x.budget != 0 then fetchTrap s2 c cause addr else s2)
    | .bundle _ => .next s2

/-! ## DEADLINE and CHECKPOINT_OVERDUE -/

/-- The trap that takes the group at stages 3 to 5 of R381, in order: DEADLINE, a fetch fault, CHECKPOINT_OVERDUE. -/
def stageTrap (s : State) (c : Nat) : Option State :=
  let x := s.ctx c
  if x.budget = 0 then some (trapHere s c 0x05 0 0 false 0 x.pc x.slot)
  else match x.form with
  | .fault cause addr => some (fetchTrap s c cause addr)
  | _ =>
    if !x.ckptNext && decide (8192 ≤ (x.lclk - x.ckpt).toNat) then
      some (trapHere s c 0x06 x.ckpt 0 false 0 x.pc x.slot)
    else none

/-- DEADLINE: a group that would issue with no budget left (R288). -/
def execDeadline (c : Nat) (s : State) : Host.Outcome State Fault Refusal :=
  .next (if s.atStage3 c && (s.ctx c).budget == 0 then (stageTrap s c).getD s else s)

/-- CHECKPOINT_OVERDUE: a group that is no checkpoint, 8,192 cycles after the last one (R319). -/
def execCheckpointOverdue (c : Nat) (s : State) : Host.Outcome State Fault Refusal :=
  let x := s.ctx c
  .next (if s.atStage3 c && x.budget != 0 && (match x.form with | .fault _ _ => false | _ => true) then
    (stageTrap s c).getD s else s)

/-! ## Pre-emption halts (R320) -/

/-- A pre-emption request stands for the context. -/
def State.asked (s : State) (c : Nat) : Bool := (s.core (c / 4)).preempt == some c

/-- The requested context halts; the request is served (R320). -/
def haltCtx (s : State) (c : Nat) (ck : Bool) : State :=
  (s.updCtx c (fun x => { x.parked with stat := .halted, atCkpt := ck, frozenAt := none, frozenSend := none, frz := none })).updCore
    (c / 4) (fun k => { k with preempt := none })

/-- An endpoint freeze of the context's landing has ended by landing. -/
def Ctx.thawed (x : Ctx) : Bool := x.frz == some .endpoint && x.frozenSend.isNone && !x.dueItems.any x.absentItem

/-- CONTEXT_HALT: the requested context halts before its next checkpoint group, at a group that an engine or program
freeze or a fetch holds, or at the group that an endpoint freeze held (R217, R320). A checkpoint group that a syn.send
without a slot has held halts once a slot is free, before it issues. -/
def execContextHalt (c : Nat) (s : State) : Host.Outcome State Fault Refusal :=
  let x := s.ctx c
  if !(x.runs && s.asked c) then .next s
  else if x.ckptNext && x.frz != some .endpoint then .next (haltCtx s c true)
  else if x.frz == some .engine || x.frz == some .program || x.frz == some .await || x.frz == some .fetch ||
      (x.thawed && (landTrap s c).isNone) then .next (haltCtx s c x.ckptNext)
  else match x.frozenSend with
    | some (_, dev) => .next (if x.frz == some .endpoint && x.ckptNext && s.sendFree c dev then haltCtx s c true else s)
    | none => .next s

/-! ## Dependences (R35, R36) -/

/-- Unit whose range of R33 holds a trigger port. -/
def unitOf (d : Nat) : Nat :=
  if d < 0x140 then 0 else if d < 0x180 then 1 else if d < 0x1C0 then 2 else if d < 0x220 then 3 else if d < 0x280 then 4
  else if d < 0x290 then 5 else if d < 0x2B0 then 6 else if d < 0x2C0 then 7 else if d < 0x2E0 then 8 else if d < 0x2F0 then 9
  else if d < 0x300 then 10 else if d < 0x310 then 11 else if d < 0x340 then 12 else if d < 0x360 then 13 else 14

/-- A register of the check: the codes of x1 to x63, v, p1 to p7, m and ps, which sources and destinations share. -/
def isItem (n : Nat) : Bool := decide (1 ≤ n) && n != 0x060 && (decide (n < 0x070) || (decide (0x078 ≤ n) && decide (n < 0x07C)))

/-- The register that a trigger port reads beside its latches (R76, R196). A vector register past v31 does not exist: it is
no state item, and the move is refused in class 4 (R12, R76). -/
def thirdItem (vbase d : Nat) : List Nat :=
  if (0x1F0 ≤ d ∧ d < 0x218) ∨ (0x250 ≤ d ∧ d < 0x278) ∨ (0x2A0 ≤ d ∧ d < 0x2B0) then
    (if vbase + d % 8 < 32 then [0x040 + vbase + d % 8] else [])
  else if (0x218 ≤ d ∧ d < 0x220) ∨ (0x278 ≤ d ∧ d < 0x280) then [0x068 + d % 8]
  else if 0x2B0 ≤ d ∧ d < 0x2C0 then [0x06F]
  else if 0x320 ≤ d ∧ d < 0x328 then [56 + d % 8]
  else []

/-- State items that a move reads (R35): the codes above; 0x1000 + i stands for si, 0x2000 + i for fi. -/
def itemsRead (vbase : Nat) (w : BitVec 24) : List Nat :=
  let g := (slotGuard w).toNat
  let n := (slotSource w).toNat
  (if g = 0 then [] else if g < 8 then [0x060 + g] else [0x1000 + g - 8]) ++
  (if isItem n then [n] else []) ++ (if 0x070 ≤ n ∧ n < 0x078 then [0x2000 + n] else []) ++ thirdItem vbase (slotDest w).toNat
/-- State items that a move writes: a drain stream at 0x3000 + i, an operand port at 0x4000 + its code, a unit's trigger
slot at 0x5000 + u; the read of a fill stream counts (R35). -/
def itemsWritten (w : BitVec 24) : List Nat :=
  let n := (slotSource w).toNat
  let d := (slotDest w).toNat
  (if 0x070 ≤ n ∧ n < 0x078 then [0x2000 + n] else []) ++
  (if isItem d then [d] else if 0x070 ≤ d ∧ d < 0x074 then [0x3000 + d] else if 0x080 ≤ d ∧ d < 0x0A0 then [0x4000 + d]
    else if 0x100 ≤ d then [0x5000 + unitOf d] else [])

/-- The position of the first move that conflicts with an earlier one (R38 class 3), given what the earlier ones read and
wrote. -/
def conflictAt (vbase : Nat) : List (BitVec 24) → Nat → List Nat → List Nat → Option Nat
  | [], _, _, _ => none
  | w :: t, i, rd, wr =>
    let r := itemsRead vbase w
    let v := itemsWritten w
    if v.any (fun a => rd.contains a || wr.contains a) || r.any wr.contains then some i
    else conflictAt vbase t (i + 1) (rd ++ r) (wr ++ v)

/-- GROUP_DEPENDENCE of a group (R36). -/
def depStop (vbase : Nat) (l : List (BitVec 24)) : Option Stop :=
  (conflictAt vbase l 0 [] []).map (fun i => ⟨6, 3, i, .trap 0x02 0 0⟩)

/-! ## Trying a group (R381) -/

/-- How the trial of a group ends. -/
inductive Fate where
  | idle | fetch | frozen | trapped | halted | issued | ended
  deriving DecidableEq, Repr

/-- How one slot is run: its decoded instruction's meaning, or the class 2 stop where it is none. -/
abbrev Run := BitVec 24 → State → Host.Outcome State Fault Refusal

/-- The frame for one move: its position, which orders the entries it makes (R169), and the long immediates it sees. -/
def State.atMove (s : State) (pos : Nat) (m : GMove) (free : Bool) : State :=
  { (s.updCtx s.iss.c (fun x => { x with age := s.iss.age0 + pos })) with
    iss := { s.iss with pos := pos, l0 := m.l0, l1 := m.l1, stop := none, free := free } }

/-- A value of the width and tag of another, with free bits: what an operation makes of an operand that its check did not see. -/
def freed (n : Nat) (v : PVal) : PVal :=
  match v with
  | .s _ => .s (Config.freeWord n)
  | .v x => .v ⟨lanesOf 1024 (fun k => Config.freeLane n k), x.tag, x.unt⟩
/-- A map with one key's entry as another map has it. -/
def NMap.putFrom {α : Type} (m from' : NMap α) (k : Nat) (f : α → α) : NMap α :=
  match from'.find? (fun e => e.1 == k) with
  | some e => NMap.put m k (f e.2)
  | none => NMap.del m k
/-- Two values have one width and, where it is V, one tag and untagged mark. -/
def sameShape (a b : PVal) : Bool :=
  match a, b with
  | .s _, .s _ => true
  | .v p, .v q => p.tag == q.tag && p.unt == q.unt
  | _, _ => false
/-- The latch of a unit as a trigger finds it: its own value where that has the width and tag that were checked, else a free
value that has them (R37, log 47). `d` is what the latch holds before its first write. -/
def latchFreed (d : PVal) (own as' : NMap PVal) (u n : Nat) : NMap PVal :=
  if sameShape (NMap.get d own u) (NMap.get d as' u) then own else NMap.putFrom own as' u (freed n)
/-- A trigger whose latches, as a false guard has left them, are not as they were checked: in place of a latch of another width or
tag it runs on a free value of the width and tag that were checked, and the latches stay as they are (R37, log 47). -/
def runFreed (run : Run) (w : Ctx) (s : State) (pos : Nat) (m : GMove) : State × Option Stop :=
  let u := unitOf (slotDest m.word).toNat
  let x := s.cx
  let s1 := s.setCx { x with
    opA := latchFreed (portZero (unitAV u)) x.opA w.opA u s.nextId
    opB := latchFreed (portZero (unitBV u)) x.opB w.opB u (s.nextId + 1) }
  match run m.word (s1.atMove pos m false) with
  | .next t =>
    match t.iss.stop with
    | none => (t.updCtx s.iss.c (fun y => { y with opA := NMap.putFrom y.opA x.opA u id, opB := NMap.putFrom y.opB x.opB u id }), none)
    | some k => (s, some k)
  | _ => (s, none)

/-- One move runs: the state after it, and the check that it met, if any. A plain move that meets a stream's check is run
on past it, so that the checks of the group's triggers see its write (R381 stages 6 and 7). The widths and tags of a trigger's
latches are checked as the group is written, in `w`, and not as its guards have left them (R37). -/
def runMove (run : Run) (w : Ctx) (s : State) (pos : Nat) (m : GMove) : State × Option Stop :=
  match run m.word (s.atMove pos m false) with
  | .next t =>
    match t.iss.stop with
    | none => (t, none)
    | some k =>
      if 0x100 ≤ (slotDest m.word).toNat ∧ k.stage = 6 ∧ (k.cls = 2 ∨ k.cls = 5) then runFreed run w s pos m
      else if k.stage < 7 ∨ 0x100 ≤ (slotDest m.word).toNat then (s, some k)
      else match run m.word (s.atMove pos m true) with
        | .next u => (if u.iss.stop.isNone then u else s, some k)
        | _ => (s, some k)
  | _ => (s, none)

/-- Moves of a group run in a given order, with their positions. -/
def runMoves (run : Run) (w : Ctx) : List (Nat × GMove) → State → List Stop → State × List Stop
  | [], s, ks => (s, ks)
  | e :: t, s, ks =>
    let r := runMove run w s e.1 e.2
    runMoves run w t r.1 (ks ++ r.2.toList)

/-- The order of R15 step 4: plain moves in group order, then triggers; an mx trigger comes before a wr trigger (R233), and
ctl, which takes effect after the group (R62), comes last. What str binds and what eng.wait releases takes its place when
the group is closed (R35, R164). An access of ls and a wr.leaf of one group perform at n + 5 in this order, ls first:
DESIGN CHOICE, since R132 gives none inside a group (log 61). -/
def moveOrder (l : List GMove) : List (Nat × GMove) :=
  let e : List (Nat × GMove) := (List.range l.length).zip l
  let d (m : Nat × GMove) : Nat := (slotDest m.2.word).toNat
  let rank (m : Nat × GMove) : Nat :=
    if d m < 0x100 then 0 else if unitOf (d m) = 11 then 2 else if unitOf (d m) = 14 then 3 else 1
  (List.range 4).flatMap (fun k => e.filter (fun m => rank m == k))

/-- A plain move as R37 has it decoded and checked: its guard counts as true, and every vector register as the context's
own, so that the value it names stands in its destination. -/
def writeAsWritten (run : Run) (s : State) (e : Nat × GMove) : State :=
  match run e.2.word (s.atMove e.1 e.2 true) with
  | .next t => if t.iss.stop.isNone then t else s
  | _ => s

/-- The plain moves of a group, with their positions. -/
def plainMoves (l : List GMove) : List (Nat × GMove) :=
  ((List.range l.length).zip l).filter (fun m => decide ((slotDest m.2.word).toNat < 0x100))
/-- The state after the plain moves of a group as its encoding has them: every guard true, every vector register owned (R34, R37,
log 47). A move that has no value, such as `L0` without its LIMM, leaves its destination as it stands: DESIGN CHOICE (log 47). -/
def written (run : Run) (l : List GMove) (s : State) : State :=
  let x := s.cx
  let s1 := { (s.setCx { x with vbase := 0, vcount := 32 }) with iss := { s.iss with guards := BitVec.allOnes 16 } }
  let s2 := (plainMoves l).foldl (writeAsWritten run) s1
  { (s2.setCx { s2.cx with vbase := x.vbase, vcount := x.vcount }) with iss := { s2.iss with guards := 0 } }
/-- The checks of R38 that the triggers of a group meet on the latches as the group's encoding leaves them, whatever the
guards of its plain moves (R34, R37, log 47). Triggers run with every guard false: they are checked and do nothing. -/
def asWritten (run : Run) (l : List GMove) (s : State) : List (Option Stop) :=
  if plainMoves l = [] then []
  else
    let s3 := written run l s
    (((List.range l.length).zip l).filter (fun m => decide (0x100 ≤ (slotDest m.2.word).toNat))).map (fun m =>
      match run m.2.word (s3.atMove m.1 m.2 true) with
      | .next t => t.iss.stop
      | _ => none)

/-- Guards as step 2 of R15 evaluates them. -/
def Ctx.guardBits (x : Ctx) : BitVec 16 := BitVec.ofNat 16 (1 + x.p.toNat / 2 * 2 + x.sp.toNat * 256)

/-- The issue frame of a group of context c, on the state after step 1. -/
def State.frame (s : State) (c : Nat) (l : List GMove) (pc : Word) (slot : Nat) : State :=
  let x := s.ctx c
  let last := (l.getLast?.map (fun m => m.bundle)).getD x.pc
  let s1 := { s with
    iss := { c := c, guards := x.guardBits, tile0 := (s.core (c / 4)).tile, gid := s.nextId, bundle := x.pc,
             after := last + 32, slot := x.slot, pos := 0, l0 := none, l1 := none, hp0 := x.hp, stop := none, free := false,
             age0 := x.age, binds := [], waited := [] }
    nextId := s.nextId + 1 }
  s1.setCtx c { x with pc := pc, slot := slot, fence := none }

/-- A stream bound by the group takes its place (R35, R149). -/
def Ctx.bind (x : Ctx) (b : Bool × Nat × Stream) : Ctx :=
  if b.1 then { x with fills := NMap.put x.fills b.2.1 b.2.2 } else { x with drains := NMap.put x.drains b.2.1 b.2.2 }
/-- A plane copy whose completion word an eng.wait has named no longer holds its plane (R164); a copy of the eng.wait's own group,
which it has not waited for, goes on holding its plane (`fresh`). -/
def Ctx.unhold (fresh : List Nat) (x : Ctx) (off : Nat) : Ctx :=
  let out (e : Nat × Nat) : Bool := e.2 == off && !fresh.contains e.1
  { x with
    copyHeld := (x.copyCw.filter out).foldl (fun h e => h &&& ~~~ BitVec.twoPow 32 e.1) x.copyHeld
    copyCw := x.copyCw.filter (fun e => !out e) }

/-- The group of context c has issued: what takes effect after the group does (R35, R164), the clock moves on (R15 step 5),
the budget and the checkpoint count (R288, R319), the vector units' occupancy (R77). A context whose task has ended keeps
its fresh state. -/
def closeGroup (s : State) (c : Nat) (ck : Bool) : State :=
  let x := s.iss.waited.foldl (Ctx.unhold (s.freshCopies c)) (s.iss.binds.foldl Ctx.bind (s.ctx c))
  if x.stat != .ready && x.stat != .trapped then s
  else s.setCtx c { x with
    age := s.iss.age0 + 8
    lclk := x.lclk + 1
    budget := x.budget - 1
    ckpt := if ck then x.lclk else x.ckpt
    vaBusy := (x.vaBusy.map (fun (e : Nat × Nat) => (e.1, e.2 - 1))).filter (fun e => e.2 != 0)
    frozenAt := none
    frozenSend := none
    frz := none }

/-- A freeze holds the context at its group (R18), with the time an endpoint freeze began (R217). -/
def freezeCtx (s : State) (c : Nat) (k : FreezeKind) (send : Option (Nat × Nat)) : State :=
  s.updCtx c (fun x => { x with
    frz := some k
    frozenSend := send
    frozenAt := if k = .endpoint then some ((if x.frz = some .endpoint ∧ x.frozenSend = send then x.frozenAt else none).getD s.wall)
      else none })

/-- An engine or program freeze, or a fetch: the context is halted there where it is asked to, at a checkpoint where the frozen
group is one (R320). -/
def freezeOrHalt (s : State) (c : Nat) (k : FreezeKind) : Fate × State :=
  if s.asked c then (.halted, haltCtx s c (s.ctx c).ckptNext)
  else (if k = .fetch then .fetch else .frozen, freezeCtx s c k none)

/-- An endpoint freeze, or its timeout where it has lasted 1,000 ns (R217). -/
def freezeEndpoint (s : State) (c : Nat) (send : Option (Nat × Nat)) : Fate × State :=
  let s1 := freezeCtx s c .endpoint send
  let x := s1.ctx c
  if x.frozenLong s.wall then
    match send with
    | some (p, _) => (.trapped, trapHere s1 c 0x0B 0 3 false p x.pc x.slot)
    | none => match landTimeout s1 c with
      | some t => (.trapped, t)
      | none => (.frozen, s1)
  else (.frozen, s1)

/-- Kind of a freeze of the group, by the stop that decides it (R215). -/
def freezeAtMove (k : Stop) (fence : Bool) : FreezeKind :=
  if fence || k.stage != 8 then .engine else if k.kind = .noSlot then .endpoint else if k.kind = .noRoom then .program else .engine

/-- The group has passed stage 5: its moves run on the state after step 1, the stop met first decides, and with none it
issues (R15, R17, R18, R381). A checkpoint group halts instead where a pre-emption request stands: one that a syn.send has
held stays frozen while it finds no slot, and neither issues nor traps afterwards (R320). -/
def issueGroup (run : Run) (s : State) (c : Nat) (l : List GMove) (pc : Word) (slot : Nat) : Fate × State :=
  let x := s.ctx c
  let ck := x.ckptNext
  let s1 := (landAll s c).frame c l pc slot
  let r := runMoves run (written run l s1).cx (moveOrder l) s1 []
  let fence := !s.fenceOpen c
  let stops := chk fence ⟨8, 0, 0, .freeze⟩ :: depStop x.vbase (l.map (fun m => m.word)) :: asWritten run l s1 ++ r.2.map some
  let ask := ck && s.asked c
  match minStop stops with
  | some k =>
    match k.kind with
    | .trap cause d0 d1 =>
      if ask then (.halted, haltCtx s c true) else (.trapped, trapHere s c cause d0 d1 false k.pos x.pc x.slot)
    | .freeze | .noSlot | .noRoom =>
      match freezeAtMove k fence with
      | .endpoint => freezeEndpoint s c (some (k.pos, fld (r.1.cx.aS 12) 32 16))
      | f => if ask then (.halted, haltCtx s c true) else freezeOrHalt s c f
  | none =>
    if ask then (.halted, haltCtx s c true)
    else
      let t := closeGroup r.1 c ck
      (if (t.ctx c).stat = .ready then .issued else .ended, t)

/-- The trial of a context's next group, through the stages of R381. -/
def attempt (run : Run) (s : State) (c : Nat) : Fate × State :=
  let x := s.ctx c
  if !x.runs then (.idle, s)
  else match x.form with
  | .need _ => freezeOrHalt s c .fetch
  | f =>
    if s.asked c && x.ckptNext && x.frz != some .endpoint then (.halted, haltCtx s c true)
    else if x.dueItems.any x.absentItem then
      if x.dueItems.any x.absentEndpoint then freezeEndpoint s c none else freezeOrHalt s c .await
    else match landTrap s c with
    | some t => (.trapped, takeLandTrap s c t)
    | none =>
      if s.asked c && x.thawed then (.halted, haltCtx s c x.ckptNext)
      else match stageTrap s c with
      | some t => (.trapped, t)
      | none =>
        match f with
        | .bad addr pos kind =>
          (.trapped, trapHere s c 0x01 addr (BitVec.ofNat 64 (pos + 256 * kind)) false pos x.pc x.slot)
        | .group l pc slot => issueGroup run s c l pc slot
        | _ => (.idle, s)

end Sys2Proof.Machine
end

