-- ==== Sys2Proof/Machine/Image.lean ====
section
/-! DEFINITION. The saved image of a context (R324 to R330): its header, control block, inlet block and sections as bytes,
and the context that an image gives back. -/

namespace Sys2Proof.Machine

/-! ## Sections (R327) -/

/-- A section: kind, index, AUX, tag, untagged mark, payload. -/
structure Sec where
  kind : Nat
  index : Nat
  aux : Nat
  tag : Nat
  unt : Bool
  data : List Byte
  deriving DecidableEq, Repr

/-- The bytes of a section, its payload padded to a multiple of 16. -/
def Sec.bytes (t : Sec) : List Byte :=
  leBytes 16 (t.kind + t.index * 2 ^ 8 + (if t.unt then 2 ^ 18 else 0) + t.tag * 2 ^ 19 + t.data.length * 2 ^ 32 + t.aux * 2 ^ 64) ++
  t.data ++ List.replicate ((16 - t.data.length % 16) % 16) 0

/-- The sections that a list of bytes holds, `n` of them with nothing after; none where they do not fit. -/
def readSecs : Nat → List Byte → Option (List Sec)
  | 0, l => if l = [] then some [] else none
  | n + 1, l =>
    let h := leAt l 0 16
    let len := h / 2 ^ 32 % 2 ^ 32
    let pad := (16 - len % 16) % 16
    if l.length < 16 + len + pad then none
    else (readSecs n (l.drop (16 + len + pad))).map (fun t =>
      ⟨h % 256, h / 2 ^ 8 % 256, h / 2 ^ 64 % 2 ^ 64, h / 2 ^ 19 % 32, h / 2 ^ 18 % 2 == 1, (l.drop 16).take len⟩ :: t)

/-! ## What an image names (R122, R328) -/

/-- Live-range entries of a checkpoint image; none for a full image, which names everything. -/
abbrev Named := Option (List (BitVec 128))

/-- The image names item `i` of a kind. -/
def names (n : Named) (kind i : Nat) : Bool :=
  match n with
  | none => true
  | some l => l.any (fun e => fld e 0 8 == kind && fld e 8 8 == i)
/-- The image names the j-th port of a unit. -/
def namesPort (n : Named) (kind u j : Nat) : Bool :=
  match n with
  | none => true
  | some l => l.any (fun e => fld e 0 8 == kind && fld e 8 8 == u && bit e (64 + j))
/-- The register set that entries of a kind name, as a bit set within `all`. -/
def namedSet (n : Named) (kind all : Nat) : Nat :=
  match n with
  | none => all
  | some l => l.foldl (fun a e => if fld e 0 8 = kind then a ||| fld e 64 64 &&& all else a) 0
/-- The tile ranges that the image holds, in ascending offset. An entry may name bytes outside the task's windows; they are saved and
written back like any other: DESIGN CHOICE, since R122 does not bound them (log 62). -/
def namedTiles (x : Ctx) (n : Named) : List (Nat × Nat) :=
  let l := match n with
    | none => (x.win.map (fun (e : Nat × Window) => (e.2.off, e.2.size))).eraseDups
    | some l => l.filterMap (fun e => if fld e 0 8 = 6 then some (fld e 64 64, fld e 32 32) else none)
  l.mergeSort (fun a b => decide (a.1 < b.1 ∨ (a.1 = b.1 ∧ a.2 ≤ b.2)))

/-- The live ranges of the checkpoint at a bundle of a task (R121). Of two checkpoint entries of one bundle, which no check refuses,
the first counts: DESIGN CHOICE, since R121 does not say (log 34). -/
def State.liveAt (s : State) (t : TaskRef) (pc : Word) : List (BitVec 128) :=
  match s.launchOf t.launch with
  | none => []
  | some l =>
    let e := (l.tasks[t.task]?).getD 0
    match ((l.ckpts.drop (fld e 288 32)).take (fld e 240 16)).find? (fun k => fld k 0 64 == pc.toNat) with
    | some k => (l.lives.drop (fld k 96 32)).take (fld k 64 16)
    | none => []

/-! ## Sections of a context (R328, R329) -/

/-- A value's bytes. -/
def valBytes (v : PVal) : List Byte := match v with | .s w => leBytes 8 w.toNat | .v x => bytesOfLanes 1024 x.lanes
/-- A section that carries a value with its tag. -/
def valSec (kind index aux : Nat) (pre : List Byte) (v : PVal) : Sec :=
  match v with
  | .s _ => ⟨kind, index, aux, 0, false, pre ++ valBytes v⟩
  | .v x => ⟨kind, index, aux, x.tag.code, x.unt, pre ++ valBytes v⟩

/-- The latch .a (j = 0) or .b (j = 1) of a unit. -/
def Ctx.latchOf (x : Ctx) (u j : Nat) : PVal :=
  if j = 0 then NMap.get (portZero (unitAV u)) x.opA u else NMap.get (portZero (unitBV u)) x.opB u

/-- The register sections, kinds 1 to 4. A live range of a vector register outside the allocation saves nothing: DESIGN CHOICE, since
R122 does not say (log 63). -/
def regSecs (x : Ctx) (n : Named) : List Sec :=
  let xs := namedSet n 1 (2 ^ 64 - 2)
  (if xs = 0 then [] else
    [⟨1, 0, xs, 0, false, (List.range 64).flatMap (fun i => if xs.testBit i then leBytes 8 (x.xreg i).toNat else [])⟩]) ++
  ((List.range x.vcount).map (fun i => x.vbase + i)).filterMap (fun i =>
    if names n 2 (0x40 + i) then some (valSec 2 (0x40 + i) 0 [] (.v (x.vreg i))) else none) ++
  (List.range 8).filterMap (fun i => if names n 3 i then some ⟨3, i, 0, 0, false, leBytes 128 (x.mreg i).toNat⟩ else none) ++
  (List.range 4).filterMap (fun i =>
    if names n 4 i then some ⟨4, i, 0, (x.psum i).tag.code, false, bytesOfLanes 64 (x.psum i).row⟩ else none)

/-- The sections of tile ranges, planes and bays, kinds 6 to 8. A live range of a plane or a bay outside the allocation saves nothing:
DESIGN CHOICE, since R122 does not say (log 63). -/
def memSecs (x : Ctx) (k : Core) (n : Named) : List Sec :=
  (namedTiles x n).map (fun r => ⟨6, 0, r.1, 0, false, Mem.read k.tile r.1 r.2⟩) ++
  (List.range 32).filterMap (fun i =>
    if x.planes.getLsbD i && names n 7 i then
      some ⟨7, i, 0, (k.plane i).tag.code, false, bytesOfLanes 4096 (k.plane i).cells⟩
    else none) ++
  (List.range 16).filterMap (fun i =>
    if x.bays.getLsbD i && names n 8 i then
      some ⟨8, i, 0, (k.bayFmt i).code, false, Mem.read k.hold (bayBytes * i) bayBytes ++
        (List.range 6144).flatMap (fun j => let t := NMap.get 0 k.htags (6144 * i + j); leBytes 2 (if t = 0 then 0xFFFF else t - 1))⟩
    else none)

/-- The stream, latch and port sections, kinds 9 to 11. A live range of a latch or result port that R6 does not have saves nothing: DESIGN
CHOICE, since R122 does not say (log 63). -/
def portSecs (x : Ctx) (n : Named) : List Sec :=
  (List.range 12).filterMap (fun i =>
    if names n 9 i then
      let t := if i < 8 then x.fill i else x.drain (i - 8)
      some ⟨9, i, 0, 0, false, match t with
        | some t => leBytes 32 t.desc.toNat ++ leBytes 8 t.pos ++ leBytes 8 1
        | none => leBytes 48 0⟩
    else none) ++
  (List.range 15).flatMap (fun u => (List.range 2).filterMap (fun j =>
    if legalDst (BitVec.ofNat 10 (0x080 + 2 * u + j)) && namesPort n 10 u j then some (valSec 10 u j [] (x.latchOf u j)) else none)) ++
  (List.range 15).flatMap (fun u => (List.range 2).filterMap (fun j =>
    if legalSrc (BitVec.ofNat 10 (0x080 + 2 * u + j)) && namesPort n 11 u j then some (valSec 11 u j [] (x.port (0x080 + 2 * u + j)))
    else none))

/-- A row of 64 lanes as 256 bytes. -/
def rowBytes (m : NMap Lane) : List Byte := bytesOfLanes 64 m
/-- The snapshot section of an item, or its claim section. A Wharf reply that has arrived is a value to land (R198), but for one
that traps; an acknowledgement that has arrived lands nothing. An ls store has no form in an image, and the device keeps it
(log 21). A Weir row carries its destination row above the destination code (log 22). -/
def itemSec (f : Flight) : Option Sec :=
  let m := f.due.toNat
  match f.item with
  | .result dst v => some (valSec 13 0 m (leBytes 8 dst) v)
  | .psAcc n isMax acc roots => some ⟨13, 3, m, acc.code, false, leBytes 8 ((if isMax then 0x2B4 else 0x2B0) + n) ++ rowBytes roots⟩
  | .berth _ w (.data bs) _ => some (valSec 13 0 m (leBytes 8 (berthReg w)) (berthValue w bs))
  | .berth a w _ _ => some ⟨13, 1, m, 0, false, leBytes 8 a.toNat ++ leBytes 8 w.toNat⟩
  | .beat p w rm cm a0 a1 af row _ md _ =>
    some ⟨13, 2, m, af.code, false, leBytes 8 p ++ leBytes 8 w.toNat ++ leBytes 8 rm.toNat ++ leBytes 8 cm.toNat ++ rowBytes a0 ++
      rowBytes a1 ++ sliceB row 0 384 ++ leBytes 128 md.toNat⟩
  | .drain w cm _ =>
    some ⟨13, 2, m, 0, false, leBytes 8 0x2F6 ++ leBytes 8 w.toNat ++ leBytes 8 0 ++ leBytes 8 cm.toNat ++ leBytes 1024 0⟩
  | .wbeat r idx _ _ => some ⟨13, 0, m, Fmt.int32.code, false, leBytes 8 (0x096 + r * 65536) ++ rowBytes idx⟩
  | .wleaf w idx none => some ⟨13, 4, m, 0, false, leBytes 8 w.toNat ++ rowBytes idx⟩
  | .wleaf w _ (some v) => some ⟨13, 0, m, v.2.code, false, leBytes 8 (0x097 + fld w 4 4 * 65536) ++ rowBytes v.1⟩
  | .wharf p _ (.ok w) _ => if p = 0x311 ∨ p = 0x313 ∨ p = 0x31D then none else some (valSec 13 0 m (leBytes 8 0x098) (.s w))
  | .wharf p _ _ _ => some ⟨13, 5, m, 0, false, leBytes 8 f.fid ++ leBytes 8 p⟩
  | .claim src k recv =>
    some ⟨14, 0, m, 0, false, leBytes 8 src.toNat ++ leBytes 8 (recv.toNat - fld recv 32 12 * 2 ^ 32) ++ leBytes 8 k ++ leBytes 8 0⟩
  | .lsLoad _ _ _ | .lsStore _ _ _ | .lsVld _ _ | .lsVst _ _ _ => none

/-- What an access of ls would do if it performed now: a store writes and is done, and what a load reads stands in its item. Only an
image shows it; the access performs at its own cycle (R132, log 21). -/
def performNow (s : State) (c : Nat) (f : Flight) : State :=
  let x := s.ctx c
  let fix (t : State) : State := t.updCtx c (fun y => { y with
    resQ := x.resQ, snap := y.snap.map (fun g => if g.fid = f.fid then { g with item := .result 0x090 (y.port 0x090) } else g) })
  let drop (t : State) : State := t.updCtx c (fun y => { y with snap := y.snap.filter (fun g => g.fid != f.fid) })
  match f.item with
  | .lsLoad a n sign => fix (landLoad s c a n sign)
  | .lsVld t a => fix (landVld s c t a)
  | .lsStore a n w => drop (landStore s c a n w)
  | .lsVst t a v => drop (landVst s c t a v)
  | _ => s
/-- The snapshot buffer as an image shows it: an ls load in flight as the value that it reads now, after the older ls stores. The
device performs it again at its own cycle (R132, log 21). -/
def State.shownSnap (s : State) (c : Nat) : List Flight :=
  let ls (f : Flight) : Bool := match f.item with | .lsLoad .. | .lsStore .. | .lsVld .. | .lsVst .. => true | _ => false
  ((((s.ctx c).snap.filter ls).foldl (fun s f => performNow s c f) s).ctx c).snap
/-- Snapshot entries in ascending landing cycle and then the order they were fired, and the claims in issue order. -/
def snapSecs (snap : List Flight) : List Sec :=
  let l := snap.filterMap itemSec
  ((l.filter (fun t => t.kind == 13)).mergeSort (fun a b => decide (a.aux ≤ b.aux))) ++ l.filter (fun t => t.kind == 14)

/-- Data that the moored sectors of a store or records of a batch have still to write, by their numbers (R318, R328). -/
def Cmd.saving (k : Core) (m : Cmd) : List (Nat × List Byte) :=
  let n := batchRec (fld m.a 20 4)
  if m.port = 0x341 then m.moored.map (fun i => (i, m.dataOf k.tile i (64 * i) 64))
  else if m.port = 0x32D then m.moored.map (fun i => (i, m.dataOf k.tile i (n * i) n))
  else []
/-- The saved sectors or records whose source line is marked (R352). -/
def Cmd.savingLost (k : Core) (m : Cmd) : List Nat :=
  let n := if m.port = 0x32D then batchRec (fld m.a 20 4) else 64
  m.moored.filter (fun i => (m.port == 0x341 || m.port == 0x32D) && m.sourceBad k i ((m.ranges.headD (0, 0)).1 + n * i) n)
/-- A moored command with the data that a section of its image holds for it (R330). -/
def Cmd.loadData (m : Cmd) (t : Sec) : Cmd :=
  let n := if m.port = 0x341 then 64 else if m.port = 0x32D then batchRec (fld m.a 20 4) else 0
  { m with data := if n = 0 then [] else
      ((List.range m.moored.length).zip m.moored).map (fun e => (e.2, sliceB t.data (24 + n * e.1) n)) }
/-- The commands of a saved task, its moored ones with their data from the image, in the order of their sections. -/
def loadMoored : List Cmd → List Sec → List Cmd
  | [], _ => []
  | m :: t, [] => m :: loadMoored t []
  | m :: t, q :: u => if m.moored = [] then m :: loadMoored t (q :: u) else m.loadData q :: loadMoored t u

/-- The moored and held-range sections of the context's pending commands, kinds 15 and 16. -/
def cmdSecs (k : Core) (l : List Cmd) : List Sec :=
  (l.filter (fun m => m.moored != [])).map (fun m =>
    ⟨15, 0, 0, 0, false, leBytes 8 m.port ++ leBytes 8 m.a.toNat ++ leBytes 8 m.b.toNat ++
      (m.saving k).flatMap (fun e => e.2)⟩) ++
  l.map (fun m => ⟨16, 0, m.cw, 0, false, leBytes 8 m.port ++ (m.ranges.take 4).flatMap (fun r => leBytes 8 r.1 ++ leBytes 8 r.2)⟩)

/-- The ABUF, MDQ, WEIR and TTAG sections, kinds 17 to 20. -/
def unitSecs (x : Ctx) : List Sec :=
  (if x.abuf = [] ∧ x.abTag = .raw ∧ !x.abUnt then [] else [⟨17, 0, 0, x.abTag.code, x.abUnt, bytesOfLanes 1024 x.abuf⟩]) ++
  (if x.mdq = [] then [] else [⟨18, x.mdq.length % 256, 0, 0, false, x.mdq.flatMap (fun e => leBytes 128 e.toNat)⟩]) ++
  (if x.recs = [] ∧ x.rtags = [] ∧ x.thf = .raw ∧ x.chain = 0 ∧ x.ten = 0 ∧ !x.wtaint then [] else
    [⟨19, 0, 0, 0, false, (List.range 4096).flatMap (fun n => leBytes 16 (NMap.get 0 x.recs n).toNat) ++
      (List.range 64).flatMap (fun i => let t := NMap.get 0 x.rtags i; leBytes 2 (if t = 0 then 0xFFFF else t - 1))⟩]) ++
  (if x.win = [] then [] else
    [⟨20, 0, 0, 0, false, (List.range 64).flatMap (fun i =>
      leBytes 1 (if (x.window i).isSome then 128 + (x.ttagOf i).code else 0))⟩])

/-- Every section of an image, in the order of R328. -/
def secsOf (x : Ctx) (snap : List Flight) (k : Core) (l : List Cmd) (n : Named) : List Sec :=
  regSecs x n ++ memSecs x k n ++ portSecs x n ++ snapSecs snap ++ cmdSecs k l ++ unitSecs x

/-! ## Header, control block and inlet block (R324 to R326) -/

/-- The control block (R325). -/
def controlBytes (x : Ctx) (k : Core) (n : Named) : List Byte :=
  let lv (m : NMap (BitVec 32)) (i : Nat) : Nat := (NMap.get 0 m i).toNat
  leBytes 4 (lv x.lc 0) ++ leBytes 4 (lv x.lc 1) ++ leBytes 4 (lv x.lc 2) ++
  (List.range 3).flatMap (fun i => leBytes 8 (x.loopStart i).toNat) ++
  (List.range 3).flatMap (fun i => leBytes 1 (NMap.get 0 x.llen i)) ++
  (List.range 3).flatMap (fun i => leBytes 1 (NMap.get 0 x.ldrain i).toNat) ++
  leBytes 1 x.sp.toNat ++ leBytes 1 (x.p.toNat &&& namedSet n 5 0xFE) ++ leBytes 8 x.rowm.toNat ++ leBytes 8 x.colm.toNat ++
  (List.range 4).flatMap (fun i => leBytes 4 (if names n 12 i then x.hptr i else 0)) ++ leBytes 4 x.copyHeld.toNat ++
  leBytes 4 ((List.range 32).foldl (fun a i => if x.planes.getLsbD i && (k.plane i).taint then a + 2 ^ i else a) 0) ++
  leBytes 8 x.ten.toNat ++ leBytes 4 x.chain.toNat ++
  leBytes 32 (x.thf.code + (if x.wtaint then 2 ^ 5 else 0) + x.abTag.code * 2 ^ 6 + (if x.abUnt then 2 ^ 11 else 0) +
    NMap.get 0 x.vaBusy 0 % 4 * 2 ^ 12 + NMap.get 0 x.vaBusy 1 % 4 * 2 ^ 14)

/-- The inlet block (R326). -/
def inletBytes (x : Ctx) : List Byte :=
  (x.inlet.take 64).flatMap (fun e => leBytes 32 (inletEntry e.2 e.1)) ++ leBytes (32 * (64 - x.inlet.length)) 0

/-- The header (R324). -/
def headerBytes (x : Ctx) (c kind nsect size : Nat) : List Byte :=
  leBytes 64 (0x4D4943 + 1 * 2 ^ 32 + kind * 2 ^ 40 + x.slot % 8 * 2 ^ 45 + (x.lclk - x.ckpt).toNat % 2 ^ 16 * 2 ^ 48 +
    (ctxPos c).toNat * 2 ^ 64 + x.inlet.length % 256 * 2 ^ 88 + nsect * 2 ^ 96 + x.taskIx * 2 ^ 128 + x.budget.toNat * 2 ^ 160 +
    x.pb.toNat * 2 ^ 192 + x.lclk.toNat * 2 ^ 256 + x.pc.toNat * 2 ^ 320 + size * 2 ^ 384)

/-- What an image of context c names: at a checkpoint its live ranges, else everything (R328). -/
def State.namedAt (s : State) (c : Nat) (ck : Bool) : Named :=
  if ck then some (s.liveAt ((s.ctx c).task.getD ⟨0, 0⟩) (s.ctx c).pc) else none
/-- The image of context c: a checkpoint image where it halted at a checkpoint, else a full one (R320, R324). -/
def imageOf (s : State) (c : Nat) (ck : Bool) : List Byte :=
  let x := s.ctx c
  let k := s.core (c / 4)
  let n := s.namedAt c ck
  let l := k.cmds.filter (fun m => m.c == c && x.task == some m.task)
  let secs := secsOf x (s.shownSnap c) k l n
  let body := secs.flatMap Sec.bytes
  headerBytes x c (if ck then 0 else 1) secs.length (2240 + body.length) ++ controlBytes x k n ++ inletBytes x ++ body

/-! ## Reading an image (R330) -/

/-- Payload bytes that a section of a kind must have. -/
def secLen (t : Sec) : Bool :=
  let n := t.data.length
  match t.kind with
  | 1 => n == 8 * ((List.range 64).filter (fun i => t.aux.testBit i)).length
  | 2 => n == 4096
  | 3 => n == 128
  | 4 => n == 256
  | 7 => n == 16384
  | 8 => n == 393216 + 12288
  | 9 => n == 48
  | 10 | 11 => n == 8 || n == 256 || n == 4096
  | 14 => n == 32
  | 17 => n == 4096
  | 18 => n % 128 == 0
  | 19 => n == 65536 + 128
  | 20 => n == 64
  | _ => true

/-- Two neighbouring sections stand in the order of R328. -/
def secOrder (a b : Sec) : Bool :=
  decide (a.kind < b.kind) || (a.kind == b.kind &&
    (if a.kind = 13 ∨ a.kind = 6 then decide (a.aux ≤ b.aux) else if 14 ≤ a.kind ∧ a.kind ≤ 16 then true
     else if a.kind = 10 ∨ a.kind = 11 then decide (a.index < b.index ∨ (a.index = b.index ∧ a.aux < b.aux))
     else decide (a.index < b.index)))
/-- Every section stands in order. -/
def secsOrdered : List Sec → Bool
  | a :: b :: t => secOrder a b && secsOrdered (b :: t)
  | _ => true

/-- Kinds that R328 reserves. -/
def secReserved (k : Nat) : Bool := k == 0 || k == 5 || k == 12 || decide (20 < k)

/-- An image whose header and section structure are well formed and name the context: KIND and the sections (R330 step 1). -/
def readImage (bs : List Byte) (c : Nat) : Option (Nat × List Sec) :=
  let h := leAt bs 0 64
  let f (lo len : Nat) : Nat := h / 2 ^ lo % 2 ^ len
  if f 0 32 ≠ 0x4D4943 ∨ f 32 8 ≠ 1 ∨ 1 < f 40 2 ∨ f 64 4 + f 70 7 * 64 ≠ (ctxPos c).toNat ∨
      64 < f 88 8 ∨ f 384 64 ≠ bs.length ∨ bs.length < 2240 then none
  else match readSecs (f 96 32) (bs.drop 2240) with
    | none => none
    | some l =>
      if l.any (fun t => secReserved t.kind || !secLen t) || !secsOrdered l then none else some (f 40 2, l)

/-- The value of a section: a scalar of 8 bytes, or a vector with its tag. -/
def Sec.val (t : Sec) : PVal :=
  if t.data.length = 8 then .s (BitVec.ofNat 64 (ofLE t.data)) else .v ⟨lanesOfBytes 1024 t.data, Fmt.ofCodeRaw t.tag, t.unt⟩

/-- A map without what is zero. -/
def tagsOf (base : Nat) (l : List Byte) (n : Nat) : NMap Nat :=
  (List.range n).filterMap (fun i => let v := leAt l (2 * i) 2; if v = 0xFFFF then none else some (base + i, v % 4096 + 1))

/-- What a section sets in the context (R330 step 3). -/
def Ctx.takeSec (x : Ctx) (t : Sec) : Ctx :=
  match t.kind with
  | 1 => { x with x := ((List.range 64).foldl (fun (a : NMap Word × Nat) i =>
      if t.aux.testBit i then (NMap.put a.1 i (BitVec.ofNat 64 (leAt t.data (8 * a.2) 8)), a.2 + 1) else a) (x.x, 0)).1 }
  | 2 => { x with v := NMap.put x.v (t.index - 0x40) ⟨lanesOfBytes 1024 t.data, Fmt.ofCodeRaw t.tag, false⟩ }
  | 3 => { x with m := NMap.put x.m t.index (BitVec.ofNat 1024 (ofLE t.data)) }
  | 4 => { x with ps := NMap.put x.ps t.index ⟨lanesOfBytes 64 t.data, Fmt.ofCodeRaw t.tag⟩ }
  | 9 =>
    if leAt t.data 40 8 % 2 = 0 then x
    else
      let r : Stream := ⟨BitVec.ofNat 256 (leAt t.data 0 32), leAt t.data 32 8⟩
      if t.index < 8 then { x with fills := NMap.put x.fills t.index r } else { x with drains := NMap.put x.drains (t.index - 8) r }
  | 10 => if t.aux = 0 then { x with opA := NMap.put x.opA t.index t.val } else { x with opB := NMap.put x.opB t.index t.val }
  | 11 => if t.aux = 0 then { x with resQ := NMap.put x.resQ t.index t.val } else { x with resQ2 := NMap.put x.resQ2 t.index t.val }
  | 17 => { x with abuf := lanesOfBytes 1024 t.data }
  | 18 => { x with mdq := (List.range (t.data.length / 128)).map (fun i => BitVec.ofNat 1024 (leAt t.data (128 * i) 128)) }
  | 19 => { x with
      recs := (List.range 4096).filterMap (fun n =>
        let r := BitVec.ofNat 128 (leAt t.data (16 * n) 16)
        if r = 0 then none else some (n, r))
      rtags := tagsOf 0 (t.data.drop 65536) 64 }
  | 20 => { x with ttag := (List.range 64).filterMap (fun i =>
      let b := leAt t.data i 1
      if b < 128 then none else some (i, Fmt.ofCodeRaw (b % 32))) }
  | _ => x

/-- What a section sets in the core (R330 step 2). -/
def Core.takeSec (k : Core) (t : Sec) : Core :=
  match t.kind with
  | 6 => k.putTile t.aux t.data
  | 7 => { k with planes := NMap.put k.planes t.index ⟨lanesOfBytes 4096 t.data, Fmt.ofCodeRaw t.tag, (k.plane t.index).taint⟩ }
  | 8 =>
    let d := k.putHold (bayBytes * t.index) (t.data.take bayBytes)
    { d with
      bayTag := NMap.put d.bayTag t.index (Fmt.ofCodeRaw t.tag)
      htags := (tagsOf (6144 * t.index) (t.data.drop bayBytes) 6144).foldl (fun m e => NMap.put m e.1 e.2) d.htags }
  | _ => k

/-- The control state that a control block gives (R325). -/
def Ctx.takeControl (x : Ctx) (b : List Byte) : Ctx :=
  let w := leAt b 96 32
  { x with
    lc := (List.range 3).map (fun i => (i, BitVec.ofNat 32 (leAt b (4 * i) 4)))
    lstart := (List.range 3).map (fun i => (i, BitVec.ofNat 64 (leAt b (12 + 8 * i) 8)))
    llen := (List.range 3).map (fun i => (i, leAt b (36 + i) 1))
    ldrain := (List.range 3).map (fun i => (i, BitVec.ofNat 8 (leAt b (39 + i) 1)))
    sp := BitVec.ofNat 8 (leAt b 42 1)
    p := BitVec.ofNat 8 (leAt b 43 1 / 2 * 2)
    rowm := BitVec.ofNat 64 (leAt b 44 8)
    colm := BitVec.ofNat 64 (leAt b 52 8)
    hp := (List.range 4).map (fun i => (i, BitVec.ofNat 23 (leAt b (60 + 4 * i) 4)))
    copyHeld := BitVec.ofNat 32 (leAt b 76 4)
    ten := BitVec.ofNat 64 (leAt b 84 8)
    chain := BitVec.ofNat 32 (leAt b 92 4)
    thf := Fmt.ofCodeRaw (w % 32)
    wtaint := w / 2 ^ 5 % 2 == 1
    abTag := Fmt.ofCodeRaw (w / 2 ^ 6 % 32)
    abUnt := w / 2 ^ 11 % 2 == 1
    vaBusy := [(0, w / 2 ^ 12 % 4), (1, w / 2 ^ 14 % 4)].filter (fun e => e.2 != 0) }

/-- Message i of an image's inlet, for a destination and a launch (R326). -/
def inletMsg (bs : List Byte) (i ddev c : Nat) (launch : Word) : Nat × Msg :=
  let e : BitVec 256 := BitVec.ofNat 256 (leAt bs (192 + 32 * i) 32)
  (fld e 0 32,
   { payload := BitVec.ofNat 64 (fld e 192 64), stamp := BitVec.ofNat 32 (fld e 160 32), sdev := BitVec.ofNat 16 (fld e 144 16),
     src := BitVec.ofNat 13 (fld e 131 13), ddev := BitVec.ofNat 16 ddev, dst := ctxPos c, rel := bit e 119,
     scope := BitVec.ofNat 4 (fld e 115 4), launch := launch })

/-- The snapshot buffer that a restore loads: what was saved, in its order; a load that met a fault is reissued (R138,
R330). A claim whose section has been removed is gone. -/
def restoredSnap (x : Ctx) (l : List Sec) : List Flight :=
  x.snap.filterMap (fun f => match f.item with
    | .claim src k _ =>
      if l.any (fun t => t.kind == 14 && leAt t.data 0 8 == src.toNat && leAt t.data 16 8 == k) then some f else none
    | .berth a w (.fault _ _ _) t | .berth a w .again t => some { f with item := .berth a w .absent t }
    | _ => some f)

/-- The context that an image gives (R330 steps 3, 4, 7 and 8), with what the device kept of it beside the image. -/
def ctxOf (kept : Ctx) (bs : List Byte) (l : List Sec) (rank c : Nat) : Ctx :=
  let h := leAt bs 0 64
  let f (lo len : Nat) : Nat := h / 2 ^ lo % 2 ^ len
  let x0 := { Ctx.init with
    task := kept.task, spid := kept.spid, vbase := kept.vbase, vcount := kept.vcount, planes := kept.planes, bays := kept.bays,
    win := kept.win, trec := kept.trec, recvd := kept.recvd, fence := kept.fence, loadQ := kept.loadQ, storeQ := kept.storeQ, copyCw := kept.copyCw,
    staged := kept.staged, stat := .ready }
  let x1 := (l.foldl Ctx.takeSec x0).takeControl (bs.drop 64)
  let lclk : Word := BitVec.ofNat 64 (f 256 64)
  { x1 with
    lclk := lclk
    pb := BitVec.ofNat 64 (f 192 64)
    budget := BitVec.ofNat 32 (f 160 32)
    ckpt := lclk - BitVec.ofNat 64 (f 48 16)
    pc := BitVec.ofNat 64 (f 320 64)
    slot := f 45 3
    inlet := (List.range (f 88 8)).map (fun i => inletMsg bs i rank c kept.launchId)
    snap := restoredSnap kept l }

/-- The core that an image gives (R330 steps 2 and 4): planes and bays of the allocation that it does not hold read zero
with tag RAW, and so do the windows of a checkpoint image (R123). -/
def coreOf (k : Core) (kept : Ctx) (bs : List Byte) (ck : Bool) (l : List Sec) : Core :=
  let ptaint := leAt (bs.drop 64) 80 4
  let k0 := if ck then kept.win.foldl (fun k e => k.putTile e.2.off (List.replicate e.2.size 0)) k else k
  let k1 := { k0 with
    planes := (List.range 32).foldl (fun m i =>
      if kept.planes.getLsbD i then NMap.put m i ⟨[], .raw, ptaint.testBit i⟩ else m) k0.planes
    bayTag := (List.range 16).foldl (fun m i => if kept.bays.getLsbD i then NMap.put m i .raw else m) k0.bayTag
    hold := (List.range 16).foldl (fun m i => if kept.bays.getLsbD i then Mem.clear m (bayBytes * i) bayBytes else m) k0.hold
    htags := k0.htags.filter (fun e => !kept.bays.getLsbD (e.1 / 6144)) }
  l.foldl Core.takeSec k1

end Sys2Proof.Machine
end

