-- ==== Sys2Proof/Machine/Contexts.lean ====
section
/-! DEFINITION. What the resident kernel does with a halted context: return from a trap, the end of its task, interrupts,
pre-emption requests, saving and restoring (R309, R310, R313 to R322, R330), and what passes between launches on a core
(R283, R284). -/

namespace Sys2Proof.Machine

/-- The state that an outcome leads to; one that is no next state leaves the given one. -/
def after (s : State) (o : Host.Outcome State Fault Refusal) : State := match o with | .next t => t | _ => s

/-! ## Placement and what a launch left (R283, R284) -/

/-- Allocations of two tasks clash on one core (R283). -/
def Ctx.clash (x y : Ctx) (sameLaunch : Bool) : Bool :=
  meets x.vbase x.vcount y.vbase y.vcount || x.planes &&& y.planes != 0 || x.bays &&& y.bays != 0 ||
  (!sameLaunch && x.win.any (fun a => y.win.any (fun b => meets a.2.off a.2.size b.2.off b.2.size)))
/-- No task on another context of the core clashes with an allocation (R283). -/
def State.fits (s : State) (c : Nat) (y : Ctx) (launch : Word) : Bool :=
  (List.range 4).all (fun j =>
    let d := c / 4 * 4 + j
    let x := s.ctx d
    d == c || x.task.isNone || !x.clash y (x.launchId == launch))

/-- Parts of the core that an allocation takes in. -/
def Ctx.parts (x : Ctx) : List Nat :=
  x.win.flatMap (fun e => (List.range ((e.2.off + e.2.size + 63) / 64 - e.2.off / 64)).map (fun i => e.2.off / 64 + i)) ++
  ((List.range 16).filter (fun b => x.bays.getLsbD b)).map (fun b => 65536 + b) ++
  ((List.range 32).filter (fun p => x.planes.getLsbD p)).map (fun p => 131072 + p)

/-- A part of the core as it stands. -/
def Core.part (k : Core) (launch : Word) (n : Nat) : Left :=
  if n < 65536 then ⟨launch, n, Mem.read k.tile (64 * n) 64, k.tmarks.filter (fun e => e.1 == n), [], Plane.init⟩
  else if n < 131072 then
    let b := n - 65536
    let own (i : Nat) : Bool := decide (6144 * b ≤ i) && decide (i < 6144 * b + 6144)
    ⟨launch, n, Mem.read k.hold (bayBytes * b) bayBytes, k.hmarks.filter (fun e => own e.1), k.htags.filter (fun e => own e.1),
      Plane.init⟩
  else ⟨launch, n, [], [], [], k.plane (n - 131072)⟩
/-- A part of the core set to what a launch left there. -/
def Core.putPart (k : Core) (v : Left) : Core :=
  if v.part < 65536 then
    let d := k.putTile (64 * v.part) v.bytes
    { d with tmarks := v.marks.foldl (fun m e => NMap.put m e.1 e.2) d.tmarks }
  else if v.part < 131072 then
    let b := v.part - 65536
    let own (i : Nat) : Bool := decide (6144 * b ≤ i) && decide (i < 6144 * b + 6144)
    let d := k.putHold (bayBytes * b) v.bytes
    { d with
      hmarks := v.marks.foldl (fun m e => NMap.put m e.1 e.2) d.hmarks
      htags := v.tags.foldl (fun m e => NMap.put m e.1 e.2) (d.htags.filter (fun e => !own e.1)) }
  else { k with planes := NMap.put k.planes (v.part - 131072) v.plane }
/-- A part that no task of a launch has held: zero (R284), a plane as R151 gives it. -/
def Left.fresh (launch : Word) (n : Nat) : Left :=
  ⟨launch, n, List.replicate (if n < 65536 then 64 else if n < 131072 then bayBytes else 0) 0, [], [], Plane.init⟩

/-- A part passes to a launch: what its own tasks left comes back, or the part is fresh; what another live launch left is
kept for it (R284). -/
def Core.take (live : Word → Bool) (launch : Word) (k : Core) (n : Nat) : Core :=
  let prev := (k.heldBy.find? (fun e => e.1 == n)).map (fun e => e.2)
  if prev = some launch then k
  else
    let kept := match prev with | some p => if live p then [k.part p n] else [] | none => []
    let old := k.left.find? (fun v => v.launch == launch && v.part == n)
    let k1 := { k with
      heldBy := NMap.put k.heldBy n launch
      left := k.left.filter (fun (v : Left) => !(v.launch == launch && v.part == n)) ++ kept }
    k1.putPart (old.getD (Left.fresh launch n))
/-- Every part of an allocation passes to a launch. -/
def State.occupy (s : State) (c : Nat) (x : Ctx) (launch : Word) : State :=
  s.updCore (c / 4) (fun k => x.parts.foldl (Core.take (fun p => (s.launchOf p).isSome) launch) k)

/-! ## Return, end, interrupts (R316, R317, R375) -/

/-- Cause of the context's last trap. -/
def Ctx.cause (x : Ctx) : Nat := fld (NMap.get 0 x.trec 0) 0 8
/-- DBGCTL.ATTACH (R372). -/
def State.attached (s : State) : Bool := bit (s.mreg 0x400) 0
/-- The context is held for the debugger (R375). -/
def State.heldFor (s : State) (c : Nat) : Bool :=
  let x := s.ctx c
  x.stat == .held || (x.stat == .trapped && x.cause == 0x12 && s.attached)

/-- The page of a LOAD_FAULT has been mapped. -/
def State.pageThere (s : State) (c : Nat) : Bool :=
  match s.walk (s.ctx c).spid (NMap.get 0 (s.ctx c).trec 4).toNat with | .leaf _ _ _ => true | .fault | .asleep _ => false
/-- The page of a LOAD_FAULT cannot be mapped: it lies beyond the address space, the kernel has declared it unmappable, or the launch
is aborted, as it is where no frame was found for the page (R316, R338, R342). -/
def State.pageNever (s : State) (c : Nat) : Bool :=
  let va := (NMap.get 0 (s.ctx c).trec 4).toNat
  decide (2 ^ 52 ≤ va) || s.unmappable.contains ((s.ctx c).spid, va / 65536) ||
    (s.launchOf (s.ctx c).launchId).any (fun l => l.stage == 3)

/-- The shipped kernel returns the halted context (R316). -/
def State.returns (s : State) (c : Nat) : Bool :=
  let x := s.ctx c
  x.stat == .interrupted || (x.stat == .trapped &&
    (x.cause == 0x0B || x.cause == 0x10 || x.cause == 0x11 || (x.cause == 0x08 && s.pageThere c)))
/-- The shipped kernel ends the task of the trapped context (R316). -/
def State.ends (s : State) (c : Nat) : Bool :=
  let x := s.ctx c
  x.stat == .trapped && !s.heldFor c && !s.returns c && (x.cause != 0x08 || s.pageNever c)

/-- TRAP_RETURN: the context resumes at its resume point; with a pre-emption request standing it is saved instead (R316). -/
def execTrapReturn (c : Nat) (s : State) : Host.Outcome State Fault Refusal :=
  .next (if s.returns c && !s.asked c then returnTo s c else s)

/-- The task of a trapped context ends with its launch TAINTED; FRAME_EXHAUSTED aborts the launch (R288, R297, R316). -/
def endTrapped (s : State) (c : Nat) : State :=
  let x := s.ctx c
  let t := endTainted s c x.cause
  if x.cause = 0x13 then t.updLaunch x.launchId Launch.abort else t
/-- TRAP_END: the kernel ends the task on its trap (R316). -/
def execTrapEnd (c : Nat) (s : State) : Host.Outcome State Fault Refusal :=
  .next (if s.ends c then endTrapped s c else s)

/-- An interrupt takes effect: the context halts at its group boundary, and is held for the debugger while ATTACH is set
(R317, R375). -/
def interruptCtx (s : State) (c : Nat) : State :=
  let s1 := s.updCtx c (fun x => { x.parked with
    stat := if s.attached then .held else .interrupted, frozenAt := none, frozenSend := none, frz := none })
  { s1 with
    intReq := s1.intReq.filter (· != c)
    msix := if s.attached then s1.msix ++ [3] else s1.msix }
/-- INTERRUPT: a running context halts at its group boundary; one that is not at a group boundary halts when it comes to
one (R317). -/
def execInterrupt (c : Nat) (s : State) : Host.Outcome State Fault Refusal :=
  .next (if (s.ctx c).stat = .ready then interruptCtx s c
    else if (s.ctx c).task.isNone || s.heldFor c || s.intReq.contains c then s
    else { s with intReq := s.intReq ++ [c] })

/-! ## Pre-emption requests (R309, R310, R320) -/

/-- The binding of a staging context is cancelled: the task becomes eligible again, and the context is free (R310). -/
def cancelBinding (s : State) (c : Nat) (t : TaskRef) : State :=
  let x := s.ctx c
  let s1 := s.setCtx c { Ctx.init with loadQ := x.loadQ, storeQ := x.storeQ, spid := x.spid, age := x.age }
  { (s1.updLaunch t.launch (fun l => l.setTask t.task .waiting)) with bindings := s1.bindings.filter (· != c) }

/-- PREEMPTION_REQUEST: a request stands on the core until its context halts; a staging context is freed (R310, R320). -/
def execPreemptionRequest (c : Nat) (s : State) : Host.Outcome State Fault Refusal :=
  let x := s.ctx c
  .next (match x.task, x.stat with
    | some t, .staging => cancelBinding s c t
    | some _, .ready | some _, .trapped | some _, .interrupted | some _, .held =>
      if (s.core (c / 4)).preempt.isSome then s else s.updCore (c / 4) (fun k => { k with preempt := some c })
    | _, _ => s)

/-! ## Saving (R322) -/

/-- Pending commands of the context's task. -/
def State.cmdsOf (s : State) (c : Nat) : List Cmd :=
  (s.core (c / 4)).cmds.filter (fun m => m.c == c && (s.ctx c).task == some m.task)

/-- The element at an offset of a rank has been sent and waits at its receiver for its page, as a moored entry does (R264). -/
def State.aqMoored (s : State) (k : Cmd) (rank off : Nat) : Bool :=
  s.allJoined k.task.launch 0x350 (mapSeq k.info) && (match s.aqBase k.task.launch (mapSeq k.info) rank with
    | some b => s.reach (k.c / 4) k.spid ((b + mapW k.info * off) % 2 ^ 64) Need.write == .unmapped
    | none => false)
/-- Elements that an exchange has sent to ranks of its own device and that have neither performed nor moored. -/
def State.awayHere (s : State) (k : Cmd) : Bool :=
  let n := max 1 (mapTotal k.info)
  k.away.any (fun i => k.devOf (i / n - 1) == k.devOf (mapRank k.info) && !s.aqMoored k (i / n - 1) (i % n))
/-- The command lets its context be saved: a collective has read its rank table and its whole source, an exchange is moored, or
has sent its whole source and has performed or moored on its own device, a near-memory command runs on, a counter increment
stands at its Wharf, and of a store only moored sectors are left (R178, R256, R269, R279, R322). -/
def State.maySave (s : State) (k : Cmd) : Bool :=
  if k.port = 0x338 then k.hasJoined && (List.range (descSrc k.info / 64)).all (fun i => k.done.contains i)
  else if k.port = 0x350 then k.moored != [] || (decide (mapTotal k.info ≤ k.sent) && !s.awayHere k)
  else k.port == 0x329 || (decide (0x358 ≤ k.port) && decide (k.port ≤ 0x35C)) ||
    (k.moored != [] && k.left.all (fun i => k.moored.contains i))

/-- A copy waits for a beat or a drain of its own context, whose clock stands: it can only go on when the context has resumed
(R164). -/
def Ctx.stalls (x : Ctx) (k : Cmd) : Bool :=
  k.plane.isSome && x.snap.any (fun f => decide (f.fid < k.id) && match f.item with
    | .beat _ w _ _ _ _ _ _ _ _ _ => some (wPlane w) == k.plane
    | .drain w _ _ => some (wPlane w) == k.plane
    | _ => false)
/-- A command waits for an access of ls or a leaf gather of its own context, whose clock stands (R132, R143). -/
def Ctx.lsAhead (x : Ctx) (k : Cmd) : Bool := ((k.cw, 8) :: k.ranges).any (fun r => x.lsPending k.id r.1 r.2)
/-- Two commands have a held byte, a bay or the metadata queue in common, so that one waits for the other (R143, R161). -/
def Cmd.shares (k m : Cmd) : Bool :=
  k.ranges.any (fun r => m.holds r.1 r.2) || m.holds k.cw 8 || (m.bay.isSome && m.bay == k.bay) ||
  (k.port == 0x2FC && m.port == 0x2FC)
/-- The commands of a list, oldest first, that can only go on when the context has resumed: copies that stall, commands behind an
access of ls, and those on what such a one holds (`acc` the ones found so far). -/
def Ctx.stuckCmds (x : Ctx) : List Cmd → List Cmd → List Cmd
  | [], acc => acc
  | k :: t, acc => x.stuckCmds t (if x.stalls k || x.lsAhead k || acc.any (fun m => k.shares m) then acc ++ [k] else acc)
/-- The context's commands that can only go on when it has resumed, and that stand in no queue and are no collectives, so that no
rule has a save wait for them (R178, R256, R322). -/
def State.stuckOf (s : State) (c : Nat) : List Cmd :=
  ((s.ctx c).stuckCmds (s.cmdsOf c) []).filter (fun k => ((s.ctx c).entry k.id).isNone && k.port != 0x338)

/-- Steps 1 and 2 of R322 are done: every berth has its reply, every queue entry has performed or is moored, and every collective
has read its source, however long that takes. A command outside the queues that waits for the context's clock is saved as it
stands and goes on when the context has resumed: DESIGN CHOICE, since R164 and R132 make it wait for that clock (log 16). -/
def State.saveReady (s : State) (c : Nat) : Bool :=
  let stuck := s.stuckOf c
  (s.ctx c).snap.all (fun f => match f.item with | .berth _ _ .absent _ => false | _ => true) &&
  (s.cmdsOf c).all (fun k => s.maySave k || stuck.any (fun m => m.id == k.id))

/-- A halted context, or a trapped or interrupted one for which a request stands and whose task its trap does not end
(R288, R316, R317, R320). -/
def State.mustSave (s : State) (c : Nat) : Bool :=
  (s.ctx c).stat == .halted ||
    (((s.ctx c).stat == .trapped || (s.ctx c).stat == .interrupted) && s.asked c && !s.heldFor c && !s.ends c)

/-- The frames that the kernel pins for a save area of n bytes, out of the pool of a partition: the first of the pool's
frames that its neighbours follow; none while there is no such run (R322, log 54). -/
def State.saveFrames (s : State) (part n : Nat) : Option (List Nat) :=
  let p := s.pool part
  ((p.map (fun f => (List.range ((n + 65535) / 65536)).map (fun i => f + 65536 * i))).find? (fun l => l.all p.contains))
/-- A saved task is no longer saved: its save area goes back to the pool. -/
def dropSaved (s : State) (v : Saved) : State :=
  v.frames.foldl (fun s f => (s.wipeFrame f).giveFrame (spPart (s.space v.spid)) f) { s with saved := s.saved.erase v }

/-- The bytes of the ranges that commands saved as they stand hold: they are held again, with what they hold, at the restore (R330
step 5, log 16). -/
def heldBytes (s : State) (c : Nat) : List (Nat × List Byte) :=
  (s.stuckOf c).flatMap (fun m => ((m.cw, 8) :: m.ranges).map (fun r => (r.1, Mem.read (s.core (c / 4)).tile r.1 r.2)))
/-- The marks of tile SRAM that a save takes along: those of the bytes that the image or the held ranges carry (R352). -/
def savedTmarks (s : State) (c : Nat) (ck : Bool) : NMap (BitVec 64) :=
  let x := s.ctx c
  marksIn (s.core (c / 4)).tmarks (namedTiles x (s.namedAt c ck) ++ (heldBytes s c).map (fun e => (e.1, e.2.length)))
/-- The marks of the Hold that a save takes along: those of the bays that the image carries (R352). -/
def savedHmarks (s : State) (c : Nat) (ck : Bool) : NMap (BitVec 64) :=
  marksIn (s.core (c / 4)).hmarks (((List.range 16).filter (fun i => (s.ctx c).bays.getLsbD i && names (s.namedAt c ck) 8 i)).map
    (fun i => (bayBytes * i, bayBytes)))

/-- CONTEXT_SAVE: once what is in flight has completed, the image is written to pinned frames of the space, and the context is
freed (R322). -/
def execContextSave (c : Nat) (s : State) : Host.Outcome State Fault Refusal :=
  let x := s.ctx c
  match x.task with
  | none => .next s
  | some t =>
    if !(s.mustSave c && s.saveReady c) then .next s
    else
      let k := s.core (c / 4)
      let mine := (s.cmdsOf c).map (fun m => { m with data := m.saving k, lost := m.savingLost k })
      let ck := x.stat == .halted && x.atCkpt
      let img := imageOf s c ck
      let part := spPart (s.space x.spid)
      match s.saveFrames part img.length with
      | none => .next s
      | some fs =>
      match s.firstAsleep fs with
      | some pa => .next (s.holdFor pa (.save c))
      | none =>
      let addr := fs.headD 0
      let s1 := { (s.putMem addr img) with pools := NMap.put s.pools part ((s.pool part).filter (fun f => !fs.contains f)) }
      let s2 := (s1.updCore (c / 4) (fun k => { k with
        cmds := k.cmds.filter (fun m => !mine.any (fun n => n.id == m.id))
        preempt := if k.preempt = some c then none else k.preempt })).setCtx c { Ctx.init with age := x.age }
      let s3 := s2.updLaunch t.launch (fun l => l.setTask t.task (.preempted c))
      .next { s3 with
        nextId := s.nextId + 1
        bindings := s3.bindings.filter (· != c)
        notified := s3.notified.filter (· != c)
        saved := s3.saved ++ [⟨t, c, x.spid, addr, false, x, mine, x.arrived, [], fs, heldBytes s c, false, savedTmarks s c ck, savedHmarks s c ck⟩] }

/-! ## Restoring (R330) -/

/-- A pending command of a saved task is pending again on its core, an mx.mdq with the entries it still promises (R161); one that
has ended writes its completion word. -/
def enterCmd (s : State) (k : Cmd) : State :=
  let s1 := s.updCore (k.c / 4) (fun q => { q with cmds := q.cmds ++ [{ k with fin := none }] })
  match k.fin with
  | some w => finish s1 (k.c / 4) k.id (fld w 0 8) (fld w 32 16)
  | none =>
    if k.port = 0x2FC ∧ k.ended.all (fun e => e.1 != 0) then
      s1.updCtx k.c (fun x => { x with mdqPromised := x.mdqPromised + k.nsec / 2 })
    else s1

/-- A command of a lost task outside the queues has nothing left to act on, and has ended: DEDUCED, since R353 names the queues only
(log 41). -/
def Cmd.gone (x : Ctx) (k : Cmd) : Cmd :=
  if (x.entry k.id).isSome || k.port = 0x338 || k.port = 0x350 || k.port = 0x329 || k.fin.isSome then k else { k with fin := some 0 }
/-- A saved task is lost with its image: its queues still perform, in their order, as those of an ended task do, and the launch
is TAINTED with cause 0x10 (R178, R353). -/
def loseSaved (s : State) (v : Saved) : State :=
  let s1 := { s with saved := s.saved.map (fun w => if w = v then { w with lost := true, cmds := w.cmds.map (Cmd.gone w.kept) } else w) }
  (s1.updLaunch v.task.launch (fun l =>
    (l.taint (v.task.task, v.kept.lclk.toNat, 0x10, (ctxPos v.c).toNat)).setTask v.task.task (.ended v.c))).event 0x07 2 0
      v.task.launch (v.c / 4)
/-- The record of a lost task goes once its commands have ended. -/
def dropLost (s : State) : State :=
  (s.saved.filter (fun v => v.lost && v.cmds.all (fun k => k.fin.isSome))).foldl dropSaved s

/-- Deliveries that waited at the home lock-keeper for the context are written (R256). -/
def deliverTo (s : State) (c rank : Nat) : State :=
  let l := (s.keeper (homeOf (c / 4))).buf.filter (fun p =>
    let e := pktEntry p.hdr 0
    entKind e == 3 && entDev e == rank && ctxOfPos (entCore e) == c)
  l.foldl (fun s p => after s (execPacketHop p s)) s

/-- Moored entries of a task whose pages are mapped replay (R318, R330). -/
def replayCmds (s : State) (l : List Cmd) : State :=
  l.foldl (fun s k => k.moored.foldl (fun s i => replayOne s (k.c / 4) k.id i) s) s

/-- The context of an image is set on context c, with the pending commands kept for it (R330 steps 2 to 8). -/
def restoreTo (s : State) (c : Nat) (v : Saved) (bs : List Byte) (kind : Nat) (l : List Sec) : State :=
  let rank := match s.launchOf v.task.launch with | some q => q.rank | none => 0
  let y := ctxOf v.kept bs l rank c
  let s1 := s.occupy c v.kept v.task.launch
  let s2 := s1.updCore (c / 4) (fun k =>
    (v.held.foldl (fun k e => k.putTile e.1 e.2) (coreOf k v.kept bs (kind == 0) l)).addMarks v.tmarks v.hmarks)
  let s3 := s2.setCtx c { y with age := max v.kept.age (s.ctx c).age, arrived := v.arrived, mdqPromised := 0 }
  let cmds := loadMoored v.cmds (l.filter (fun t => t.kind == 15))
  let s4 := cmds.foldl enterCmd s3
  replayCmds (deliverTo s4 c rank) cmds

end Sys2Proof.Machine
end

