-- ==== Sys2Proof/Machine/Ia.lean ====
section
/-! DEFINITION. The integer and address units ia0 and ia1 (R57, R58). -/

namespace Sys2Proof.Machine

/-- A shift amount: b[5:0] (R57). -/
def shamt (b : Word) : Nat := b.toNat % 64

/-- Trailing zero bits of a number, `n` at most. -/
def ctz : Nat → Nat → Nat
  | 0, _ => 0
  | n + 1, a => if a % 2 = 1 then 0 else ctz n (a / 2) + 1

/-- One bits among the low `n` bits of a number. -/
def popc : Nat → Nat → Nat
  | 0, _ => 0
  | n + 1, a => a % 2 + popc n (a / 2)

/-- The width W of a bit-field extract: b[13:8] with 0 read as 64. -/
def bfW (b : Word) : Nat := if fld b 8 6 = 0 then 64 else fld b 8 6

/-- (a >> P) AND mask(W) (R58, bfxu). -/
def bfx (a b : Word) : Word := BitVec.ofNat 64 ((a.toNat >>> shamt b) % 2 ^ bfW b)

/-- One trigger of unit ia`u`: .q and .q2 land together at +lat, from the latches as the group leaves them (R7, R57). -/
def iaTrig (lat : Nat) (f : Word → Word → Word × Word) (g : BitVec 4) (src : BitVec 10) (u : BitVec 1) (s : State) :
    Host.Outcome State Fault Refusal :=
  trigger s g src [] [] (fun t =>
    let r := f (t.cx.aS u.toNat) (t.cx.bS u.toNat)
    (t.landS lat (0x080 + 2 * u.toNat) r.1).landS lat (0x081 + 2 * u.toNat) r.2)

/-- 0x100: a + b, and the carry out. -/
def execIaAdd (g : BitVec 4) (src : BitVec 10) (u : BitVec 1) (s : State) : Host.Outcome State Fault Refusal :=
  iaTrig 1 (fun a b => (a + b, carryOut a b)) g src u s

/-- 0x101: a − b, and 1 if unsigned(a) < unsigned(b). -/
def execIaSub (g : BitVec 4) (src : BitVec 10) (u : BitVec 1) (s : State) : Host.Outcome State Fault Refusal :=
  iaTrig 1 (fun a b => (a - b, borrow a b)) g src u s

/-- 0x102: the low 32 bits of a + b, sign-extended. -/
def execIaAddw (g : BitVec 4) (src : BitVec 10) (u : BitVec 1) (s : State) : Host.Outcome State Fault Refusal :=
  iaTrig 1 (fun a b => alone (sext (a + b) 31)) g src u s

/-- 0x103: the low 32 bits of a − b, sign-extended. -/
def execIaSubw (g : BitVec 4) (src : BitVec 10) (u : BitVec 1) (s : State) : Host.Outcome State Fault Refusal :=
  iaTrig 1 (fun a b => alone (sext (a - b) 31)) g src u s

/-- 0x104: a AND b. -/
def execIaAnd (g : BitVec 4) (src : BitVec 10) (u : BitVec 1) (s : State) : Host.Outcome State Fault Refusal :=
  iaTrig 1 (fun a b => alone (a &&& b)) g src u s

/-- 0x105: a OR b. -/
def execIaOr (g : BitVec 4) (src : BitVec 10) (u : BitVec 1) (s : State) : Host.Outcome State Fault Refusal :=
  iaTrig 1 (fun a b => alone (a ||| b)) g src u s

/-- 0x106: a XOR b. -/
def execIaXor (g : BitVec 4) (src : BitVec 10) (u : BitVec 1) (s : State) : Host.Outcome State Fault Refusal :=
  iaTrig 1 (fun a b => alone (a ^^^ b)) g src u s

/-- 0x107: a AND NOT b. -/
def execIaAndn (g : BitVec 4) (src : BitVec 10) (u : BitVec 1) (s : State) : Host.Outcome State Fault Refusal :=
  iaTrig 1 (fun a b => alone (a &&& ~~~b)) g src u s

/-- 0x108: a shifted left by b[5:0]. -/
def execIaSll (g : BitVec 4) (src : BitVec 10) (u : BitVec 1) (s : State) : Host.Outcome State Fault Refusal :=
  iaTrig 1 (fun a b => alone (a <<< shamt b)) g src u s

/-- 0x109: a shifted right by b[5:0], zero fill. -/
def execIaSrl (g : BitVec 4) (src : BitVec 10) (u : BitVec 1) (s : State) : Host.Outcome State Fault Refusal :=
  iaTrig 1 (fun a b => alone (a >>> shamt b)) g src u s

/-- 0x10A: a shifted right by b[5:0], sign fill. -/
def execIaSra (g : BitVec 4) (src : BitVec 10) (u : BitVec 1) (s : State) : Host.Outcome State Fault Refusal :=
  iaTrig 1 (fun a b => alone (a.sshiftRight (shamt b))) g src u s

/-- 0x10B: a rotated right by b[5:0]. -/
def execIaRor (g : BitVec 4) (src : BitVec 10) (u : BitVec 1) (s : State) : Host.Outcome State Fault Refusal :=
  iaTrig 1 (fun a b => alone (a.rotateRight (shamt b))) g src u s

/-- 0x10C: the smaller of signed(a) and signed(b). -/
def execIaMin (g : BitVec 4) (src : BitVec 10) (u : BitVec 1) (s : State) : Host.Outcome State Fault Refusal :=
  iaTrig 1 (fun a b => alone (if a.toInt ≤ b.toInt then a else b)) g src u s

/-- 0x10D: the larger of signed(a) and signed(b). -/
def execIaMax (g : BitVec 4) (src : BitVec 10) (u : BitVec 1) (s : State) : Host.Outcome State Fault Refusal :=
  iaTrig 1 (fun a b => alone (if a.toInt ≤ b.toInt then b else a)) g src u s

/-- 0x10E: the smaller, unsigned. -/
def execIaMinu (g : BitVec 4) (src : BitVec 10) (u : BitVec 1) (s : State) : Host.Outcome State Fault Refusal :=
  iaTrig 1 (fun a b => alone (if a.toNat ≤ b.toNat then a else b)) g src u s

/-- 0x10F: the larger, unsigned. -/
def execIaMaxu (g : BitVec 4) (src : BitVec 10) (u : BitVec 1) (s : State) : Host.Outcome State Fault Refusal :=
  iaTrig 1 (fun a b => alone (if a.toNat ≤ b.toNat then b else a)) g src u s

/-- 0x110: the 128-bit product, signed by signed, at +3. -/
def execIaMul (g : BitVec 4) (src : BitVec 10) (u : BitVec 1) (s : State) : Host.Outcome State Fault Refusal :=
  iaTrig 3 (fun a b => prodPair (a.toInt * b.toInt)) g src u s

/-- 0x111: the 128-bit product, unsigned by unsigned, at +3. -/
def execIaMulu (g : BitVec 4) (src : BitVec 10) (u : BitVec 1) (s : State) : Host.Outcome State Fault Refusal :=
  iaTrig 3 (fun a b => prodPair ((a.toNat * b.toNat : Nat) : Int)) g src u s

/-- 0x112: the 128-bit product, signed by unsigned, at +3. -/
def execIaMulsu (g : BitVec 4) (src : BitVec 10) (u : BitVec 1) (s : State) : Host.Outcome State Fault Refusal :=
  iaTrig 3 (fun a b => prodPair (a.toInt * b.toNat)) g src u s

/-- 0x113: the low 32 bits of a[31:0] × b[31:0], sign-extended, at +3. -/
def execIaMulw (g : BitVec 4) (src : BitVec 10) (u : BitVec 1) (s : State) : Host.Outcome State Fault Refusal :=
  iaTrig 3 (fun a b => alone (sext (a * b) 31)) g src u s

/-- 0x118: a = b, and its complement. -/
def execIaEq (g : BitVec 4) (src : BitVec 10) (u : BitVec 1) (s : State) : Host.Outcome State Fault Refusal :=
  iaTrig 1 (fun a b => cmpPair (a == b)) g src u s

/-- 0x119: signed(a) < signed(b), and its complement. -/
def execIaLt (g : BitVec 4) (src : BitVec 10) (u : BitVec 1) (s : State) : Host.Outcome State Fault Refusal :=
  iaTrig 1 (fun a b => cmpPair (decide (a.toInt < b.toInt))) g src u s

/-- 0x11A: unsigned(a) < unsigned(b), and its complement. -/
def execIaLtu (g : BitVec 4) (src : BitVec 10) (u : BitVec 1) (s : State) : Host.Outcome State Fault Refusal :=
  iaTrig 1 (fun a b => cmpPair (decide (a.toNat < b.toNat))) g src u s

/-- 0x11B: (a AND b) ≠ 0, and its complement. -/
def execIaTst (g : BitVec 4) (src : BitVec 10) (u : BitVec 1) (s : State) : Host.Outcome State Fault Refusal :=
  iaTrig 1 (fun a b => cmpPair ((a &&& b) != 0)) g src u s

/-- 0x120: leading zero bits of a, 64 for 0. -/
def execIaClz (g : BitVec 4) (src : BitVec 10) (u : BitVec 1) (s : State) : Host.Outcome State Fault Refusal :=
  iaTrig 1 (fun a _ => alone (BitVec.ofNat 64 (64 - bitLen a.toNat))) g src u s

/-- 0x121: trailing zero bits of a, 64 for 0. -/
def execIaCtz (g : BitVec 4) (src : BitVec 10) (u : BitVec 1) (s : State) : Host.Outcome State Fault Refusal :=
  iaTrig 1 (fun a _ => alone (BitVec.ofNat 64 (ctz 64 a.toNat))) g src u s

/-- 0x122: one bits of a. -/
def execIaPopc (g : BitVec 4) (src : BitVec 10) (u : BitVec 1) (s : State) : Host.Outcome State Fault Refusal :=
  iaTrig 1 (fun a _ => alone (BitVec.ofNat 64 (popc 64 a.toNat))) g src u s

/-- 0x123: the bytes of a in reverse order. -/
def execIaBswap (g : BitVec 4) (src : BitVec 10) (u : BitVec 1) (s : State) : Host.Outcome State Fault Refusal :=
  iaTrig 1 (fun a _ => alone (BitVec.ofNat 64 (ofLE (leBytes 8 a.toNat).reverse))) g src u s

/-- 0x124: sext(a, b[5:0]). -/
def execIaSext (g : BitVec 4) (src : BitVec 10) (u : BitVec 1) (s : State) : Host.Outcome State Fault Refusal :=
  iaTrig 1 (fun a b => alone (sext a (shamt b))) g src u s

/-- 0x125: a AND mask(b[5:0] + 1). -/
def execIaZext (g : BitVec 4) (src : BitVec 10) (u : BitVec 1) (s : State) : Host.Outcome State Fault Refusal :=
  iaTrig 1 (fun a b => alone (BitVec.ofNat 64 (a.toNat % 2 ^ (shamt b + 1)))) g src u s

/-- 0x126: bit field of a, zero-extended. -/
def execIaBfxu (g : BitVec 4) (src : BitVec 10) (u : BitVec 1) (s : State) : Host.Outcome State Fault Refusal :=
  iaTrig 1 (fun a b => alone (bfx a b)) g src u s

/-- 0x127: bit field of a, sign-extended from bit W − 1. -/
def execIaBfxs (g : BitVec 4) (src : BitVec 10) (u : BitVec 1) (s : State) : Host.Outcome State Fault Refusal :=
  iaTrig 1 (fun a b => alone (sext (bfx a b) (bfW b - 1))) g src u s

/-- 0x128: (a[31:0] << 32) OR b[31:0]. -/
def execIaCat (g : BitVec 4) (src : BitVec 10) (u : BitVec 1) (s : State) : Host.Outcome State Fault Refusal :=
  iaTrig 1 (fun a b => alone (a <<< 32 ||| BitVec.ofNat 64 (fld b 0 32))) g src u s

/-- 0x130–0x133: a + (b << k). -/
def execIaLea (g : BitVec 4) (src : BitVec 10) (u : BitVec 1) (k : BitVec 2) (s : State) : Host.Outcome State Fault Refusal :=
  iaTrig 1 (fun a b => alone (a + b <<< k.toNat)) g src u s

/-- 0x134: the signed sum clamped, and 1 if clamped. -/
def execIaAddsat (g : BitVec 4) (src : BitVec 10) (u : BitVec 1) (s : State) : Host.Outcome State Fault Refusal :=
  iaTrig 1 (fun a b => clampPair (a.toInt + b.toInt)) g src u s

/-- 0x135: the signed difference clamped, and 1 if clamped. -/
def execIaSubsat (g : BitVec 4) (src : BitVec 10) (u : BitVec 1) (s : State) : Host.Outcome State Fault Refusal :=
  iaTrig 1 (fun a b => clampPair (a.toInt - b.toInt)) g src u s

end Sys2Proof.Machine
end

