-- ==== Sys2Proof/Machine/Stmt.lean ====
section
/-! DEFINITION. Statements and reports (R363 to R370), the host's commands that ask for them, and the boot sequence
(R367, R368). -/

namespace Sys2Proof.Machine

/-! ## Statements (R365, R366) -/

/-- Host memory at a host address (R332). -/
def State.readHost (s : State) (a n : Nat) : List Byte := Mem.read s.mem (0x100000000000 + a) n
/-- Bytes written to a host address; none outside the window. -/
def State.writeHost (s : State) (a : Nat) (bs : List Byte) : State :=
  if a + bs.length ≤ 2 ^ 44 then s.putMem (0x100000000000 + a) bs else s

/-- Regions with a counter that is not zero, ascending (R365). -/
def State.counted (s : State) : List Nat :=
  (List.range 4096).filter (fun g => NMap.get 0 s.admitted g != 0 || NMap.get 0 s.beat g != 0)

/-- The bytes of a statement before its signatures (R365). -/
def stmtBody (s : State) (kind : Nat) (launch : Word) (ref : BitVec 256) : List Byte :=
  let l := s.counted
  leBytes 128 (0x534C54 + 1 * 2 ^ 32 + kind * 2 ^ 48 + (if s.gapFlag then 2 ^ 56 else 0) + (if kind = 5 then 2 ^ 57 else 0) +
    (s.stmtSeq + 1) % 2 ^ 64 * 2 ^ 64 + s.gen % 2 ^ 32 * 2 ^ 128 + l.length * 2 ^ 160 + launch.toNat * 2 ^ 192 +
    Config.devid.toNat * 2 ^ 256 + s.stmtPrev.toNat * 2 ^ 512 + ref.toNat * 2 ^ 768) ++
  l.flatMap (fun g => leBytes 24 (g + NMap.get 0 s.admitted g * 2 ^ 64 + NMap.get 0 s.beat g * 2 ^ 128))
/-- The signature field over a body: two signatures of 3,373 bytes together, then three zero bytes (R365, R370). -/
def signature (body : List Byte) : List Byte := sliceB (Config.deviceSign body) 0 3373 ++ [0, 0, 0]
/-- A statement is signed and emitted: counters as they stand, the next SEQ of the chain (R365, R366). -/
def State.emit (s : State) (kind : Nat) (launch : Word) (ref : BitVec 256) : State :=
  let body := stmtBody s kind launch ref
  let bs := body ++ signature body
  ({ s with
    stmtSeq := s.stmtSeq + 1
    stmtPrev := Config.sha256 bs
    stmts := s.stmts ++ [(s.stmtSeq + 1, s.admitted, s.beat)]
    final := s.final || kind == 4 }).statement bs

/-- The statement that stands at a host address. -/
def State.stmtAt (s : State) (a : Nat) : List Byte :=
  let n := leAt (s.readHost a 128) 20 4
  s.readHost a (3504 + 24 * min n 4096)
/-- Both signatures of a statement verify, under the keys that its DEVID names (R365). -/
def stmtGood (bs : List Byte) : Bool :=
  let n := bs.length - 3376
  let id := BitVec.ofNat 256 (leAt bs 32 32)
  decide (leAt bs 20 4 ≤ 4096) && Config.edVerify id (bs.take n) (BitVec.ofNat 512 (leAt bs n 64)) &&
  Config.mlVerify id (bs.take n) ((bs.drop (n + 64)).take 3309)
/-- Region entries of a statement: region, ADMIT, BEAT. -/
def stmtRegions (bs : List Byte) : List (Nat × Nat × Nat) :=
  (List.range (leAt bs 20 4)).map (fun i =>
    let o := 128 + 24 * i
    (leAt bs o 2 % 4096, leAt bs (o + 8) 8, leAt bs (o + 16) 8))
/-- A counter map with the values of region entries. -/
def putRegions (m : NMap Nat) (l : List (Nat × Nat)) : NMap Nat := l.foldl (fun m e => NMap.put m e.1 e.2) m

/-- The resident kernel runs and takes host commands (R367, R356). -/
def State.open' (s : State) : Bool := s.bootStep == 9 && s.mreg 0x10 == 1
/-- The device is out of service (R356). -/
def State.outOfService (s : State) : Bool := s.mreg 0x10 == 4

/-! ## Commits (R364) -/

/-- A statement still waits for room in the statement ring (R373). -/
def State.heldBack (s : State) (n : Nat) : Bool := s.heldOut.any (fun e => e.1 && leAt e.2 8 8 == n)
/-- SACK: a statement of this generation above the last committed one commits, and every earlier one with it; one that the
host has not received, since it is held back, commits nothing (R364). The BOOT statement's commit opens the launch queues
(R367 step 8). -/
def execSack (val : Word) (s : State) : Host.Outcome State Fault Refusal :=
  let n := val.toNat
  .next (match s.stmts.find? (fun e => e.1 == n) with
    | some e =>
      if s.committed < n ∧ !s.heldBack n then
        { s with committed := n, cadmit := e.2.1, cbeat := e.2.2, bootStep := if s.bootStep = 8 then 9 else s.bootStep }
      else s
    | none => s)

/-! ## Requests (R366, R369, R370, R374) -/

/-- STATEMENT_REQUEST: a KIND 2 statement (R366, R374). -/
def execStatementRequest (s : State) : Host.Outcome State Fault Refusal :=
  .next (if s.open' || s.outOfService then s.emit 2 0 0 else s)

/-- The bytes of a report before its signatures (R370). A launch that the device does not know is reported as none. -/
def reportBody (s : State) (launch : Word) (nonce : BitVec 256) : List Byte :=
  let l := s.launchOf launch
  let id : Nat := match l with | some q => q.id.toNat | none => 0
  let meas : Nat := match l with | some q => (Config.sha256 (q.image.take (leAt q.image 28 4))).toNat | none => 0
  leBytes 256 (0x525441 + 1 * 2 ^ 32 + id * 2 ^ 64 + s.gen % 2 ^ 32 * 2 ^ 128 + s.stmtSeq % 2 ^ 64 * 2 ^ 192 +
    Config.devid.toNat * 2 ^ 256 + nonce.toNat * 2 ^ 512 + s.kmeas.toNat * 2 ^ 768 + meas * 2 ^ 1024 + s.stmtPrev.toNat * 2 ^ 1280)
/-- ATTESTATION_REPORT: the report and its signatures are written at the reply address (R370, R374). -/
def execAttestationReport (launch addr : Word) (nonce : BitVec 256) (s : State) : Host.Outcome State Fault Refusal :=
  .next (if s.open' || s.outOfService then
    let body := reportBody s launch nonce
    s.writeHost addr.toNat (body ++ signature body)
  else s)

/-- PRESENT_STATEMENT: at step 7 of the boot the host presents its last statement, or none; the counters start, and the
BOOT statement is emitted (R367, R368, R374). -/
def execPresentStatement (addr : Word) (s : State) : Host.Outcome State Fault Refusal :=
  if s.bootStep != 7 || s.outOfService then .next s
  else
    let bs := s.stmtAt addr.toNat
    let ok := addr != 0 && stmtGood bs && BitVec.ofNat 256 (leAt bs 32 32) == Config.devid && decide (leAt bs 16 4 < s.gen)
    let r : List (Nat × Nat × Nat) := if ok then stmtRegions bs else []
    let admitted := putRegions [] (r.map (fun (e : Nat × Nat × Nat) => (e.1, e.2.1)))
    let beat := putRegions [] (r.map (fun (e : Nat × Nat × Nat) => (e.1, e.2.2)))
    let seq := if ok then leAt bs 8 8 else 0
    let gap := if ok then !(leAt bs 6 1 == 4 && leAt bs 16 4 + 1 == s.gen) else !(addr == 0 && s.gen == 1)
    .next (({ s with
      admitted := admitted, beat := beat, cadmit := admitted, cbeat := beat, stmtSeq := seq, committed := seq
      stmtPrev := if ok then Config.sha256 bs else 0
      gapFlag := gap, bootStep := 8 }).emit 0 0 0)

/-- IMPORT_STATEMENT: another device's final statement raises the counters of its regions (R369, R374). -/
def execImportStatement (addr : Word) (s : State) : Host.Outcome State Fault Refusal :=
  let bs := s.stmtAt addr.toNat
  let r : List (Nat × Nat × Nat) := stmtRegions bs
  let dev := BitVec.ofNat 256 (leAt bs 32 32)
  let ok := s.open' && dev != Config.devid && Config.approvedDevice dev && stmtGood bs &&
    (leAt bs 6 1 == 3 || leAt bs 6 1 == 4) &&
    r.all (fun (e : Nat × Nat × Nat) =>
      decide (NMap.get 0 s.admitted e.1 ≤ e.2.1) && decide (NMap.get 0 s.beat e.1 ≤ e.2.2) && !s.imported.contains e.1)
  .next (if ok then
    ({ s with
      admitted := putRegions s.admitted (r.map (fun (e : Nat × Nat × Nat) => (e.1, e.2.1)))
      beat := putRegions s.beat (r.map (fun (e : Nat × Nat × Nat) => (e.1, e.2.2)))
      imported := s.imported ++ (r.filter (fun (e : Nat × Nat × Nat) =>
        decide (NMap.get 0 s.admitted e.1 < e.2.1) || decide (NMap.get 0 s.beat e.1 < e.2.2))).map
        (fun (e : Nat × Nat × Nat) => e.1) }).emit 5 0 (Config.sha256 bs)
  else s)

/-- MIGRATION_OUT: a KIND 3 statement before the migration (R366). -/
def execMigrationOut (s : State) : Host.Outcome State Fault Refusal := .next (if s.open' then s.emit 3 0 0 else s)

/-- The event record of an edge that has failed (R356). -/
def State.edgeEvent (s : State) (pair : BitVec 4) : State := s.event 0x0A 2 (pair.setWidth 64) 0 0xFFFF
/-- Once a device that is closing has no launch left, its KIND 4 statement follows, behind the events of the edges that have put
it out of service (R356, R366), where a kernel runs that can sign it (R367). -/
def closeGen (s : State) : State :=
  if s.closed && s.launches == [] && !s.final && decide (7 ≤ s.bootStep) then (s.deadEdges.foldl State.edgeEvent s).emit 4 0 0 else s

/-- ORDERLY_SHUTDOWN: no further launch is accepted, and the KIND 4 statement follows the last one's completion (R366). -/
def execOrderlyShutdown (s : State) : Host.Outcome State Fault Refusal :=
  .next (if s.open' then closeGen { s with closed := true } else s)

/-- A region's delta has come to half of a bound since the last statement (R366). -/
def State.nearBound (s : State) : Bool :=
  let last := s.stmts.getLast?.map (fun e => e.2)
  let half (bound cur com old : Nat) : Bool := decide (bound ≤ 2 * (cur - com)) && decide (2 * (old - com) < bound)
  s.counted.any (fun g =>
    half s.abound (NMap.get 0 s.admitted g) (NMap.get 0 s.cadmit g) (match last with | some l => NMap.get 0 l.1 g | none => 0) ||
    half s.bbound (NMap.get 0 s.beat g) (NMap.get 0 s.cbeat g) (match last with | some l => NMap.get 0 l.2 g | none => 0))

/-! ## Boot (R367) -/

/-- The value within two limits. -/
def clampNat (lo hi n : Nat) : Nat := max lo (min hi n)

/-- POWER_ON_RESET: everything stands at its reset image but the fuses and the host's own memory, and the ROM runs
(R367). -/
def execPowerOnReset (s : State) : Host.Outcome State Fault Refusal :=
  .next { State.reset with
    inbox := s.inbox
    gen := s.gen
    mem := s.mem.filter (fun e => decide (0x100000000000 ≤ e.1)) }

/-- Steps 2 to 7 of R367, once the host has named the kernel image: signatures, fuse, KMEAS, memories cleared, bounds. GAP is what it
is while no statement has been presented (R368). -/
def bootRom (s : State) : State :=
  let img := s.readHost (s.mreg 0).toNat (min (s.mreg 8).toNat (2 ^ 44 - (s.mreg 0).toNat))
  if !Config.kernelImageGood img then { (s.setMreg 0x10 2) with bootStep := 2 }
  else if 16383 ≤ s.gen ∨ !Config.fuseBurns s.gen then { (s.setMreg 0x10 3) with bootStep := 3 }
  else { (s.setMreg 0x10 1) with
    bootStep := 7
    gen := s.gen + 1
    kmeas := Config.sha256 img
    mem := s.mem.filter (fun e => decide (0x100000000000 ≤ e.1))
    marks := []
    cores := s.cores.map (fun e => (e.1, { e.2 with
      tile := [], tmarks := [], hold := [], hmarks := [], htags := [], heldBy := [], left := [] }))
    wharfs := []
    admitted := [], beat := [], cadmit := [], cbeat := [], stmts := [], imported := [], stmtSeq := 0, stmtPrev := 0, committed := 0
    final := false, closed := false
    gapFlag := s.gen + 1 != 1
    abound := clampNat (2 ^ 24) (2 ^ 40) (Config.abound (s.gen + 1))
    bbound := clampNat (2 ^ 24) (2 ^ 48) (Config.bbound (s.gen + 1)) }

end Sys2Proof.Machine
end

