-- ==== Sys2Proof/Machine/Accept.lean ====
section
/-! DEFINITION. The Camnis Object Format as the resident kernel reads it (R111 to R128), and the acceptance of a launch
record (R289 to R293, R377, R379). -/

namespace Sys2Proof.Machine

/-! ## Object format (R111 to R115) -/

/-- A little-endian field of a record. -/
def recF (l : List Byte) (lo n : Nat) : Nat := ofLE l / 2 ^ lo % 2 ^ n

/-- A parsed image: its bytes, string table, sections and tables. -/
structure Cmo where
  bytes : List Byte
  sigoff : Nat
  stroff : Nat
  strsz : Nat
  sections : List (BitVec 256)
  tables : List (Nat × List (List Byte))
  deriving DecidableEq, Repr

/-- Record size of a table kind that an image may hold; 0 for another (R114). -/
def tableSize (kind : Nat) : Nat :=
  match kind with
  | 1 => 24 | 3 => 64 | 4 => 32 | 5 => 8 | 6 => 16 | 7 => 16 | 8 => 24 | 9 => 64 | 10 => 32 | 11 => 64 | _ => 0

/-- The n records of a size from an offset. -/
def recordsAt (bs : List Byte) (off size n : Nat) : List (List Byte) :=
  (List.range n).map (fun i => (bs.drop (off + size * i)).take size)

/-- Records of a table, none where the image has no such table. -/
def Cmo.table (m : Cmo) (kind : Nat) : List (List Byte) := ((m.tables.find? (fun e => e.1 == kind)).map (fun e => e.2)).getD []

/-- A string of the string table at an offset. -/
def Cmo.name (m : Cmo) (n : Nat) : List Byte := ((m.bytes.drop (m.stroff + n)).take (m.strsz - n)).takeWhile (· != 0)

/-- A section header breaks R113. A section that ends above 2^52, or whose ALIGN is above 63, is refused with it at step 2:
DESIGN CHOICE, since R113 states no such bound (log 60). -/
def sectionBad (size strsz : Nat) (h : BitVec 256) : Bool :=
  let kind := fld h 32 8
  fld h 56 8 != 0 || fld h 43 5 != 0 || kind == 0 || decide (5 < kind) || (kind == 1 && (fld h 40 3 != 5 || decide (fld h 48 8 < 5))) ||
  (kind == 4 && fld h 96 32 != 0) || decide (fld h 192 64 < fld h 96 32) || decide (size < fld h 64 32 + fld h 96 32) ||
  decide (2 ^ 52 < fld h 128 64 + fld h 192 64) || decide (63 < fld h 48 8) || fld h 128 64 % 2 ^ fld h 48 8 != 0 ||
  decide (strsz ≤ fld h 0 32)

/-- A file whose header, section headers and directory keep R111 to R114, parsed. -/
def parseImage (bs : List Byte) : Option Cmo :=
  let h := bs.take 64
  let nsect := recF h 64 16
  let ndir := recF h 80 16
  let sectoff := recF h 96 32
  let diroff := recF h 128 32
  let stroff := recF h 160 32
  let strsz := recF h 192 32
  let sigoff := recF h 224 32
  let size := bs.length
  let dirs := (recordsAt bs diroff 16 ndir).map (fun r => (recF r 0 16, recF r 16 16, recF r 32 32, recF r 64 32, recF r 96 32))
  let sections := (recordsAt bs sectoff 32 nsect).map (fun r => BitVec.ofNat 256 (ofLE r))
  let content := sections.filter (fun s => fld s 96 32 != 0)
  let dirBad (d : Nat × Nat × Nat × Nat × Nat) : Bool :=
    d.2.2.2.2 != 0 || tableSize d.1 == 0 || d.2.1 != tableSize d.1 || d.2.2.1 == 0 || d.2.2.2.1 % 8 != 0 ||
    decide (size < d.2.2.2.1 + d.2.1 * d.2.2.1) || decide (stroff < d.2.2.2.1 + d.2.1 * d.2.2.1) ||
    content.any (fun s => decide (d.2.2.2.1 < fld s 64 32 + fld s 96 32))
  if size < 64 ∨ recF h 0 32 ≠ 0x4F4D43 ∨ recF h 32 16 ≠ 1 ∨ recF h 48 16 ≠ 1 ∨ recF h 288 224 ≠ 0 ∨ recF h 256 32 ≠ size ∨
      sectoff % 8 ≠ 0 ∨ diroff % 8 ≠ 0 ∨ stroff % 8 ≠ 0 ∨ sigoff % 8 ≠ 0 ∨ sectoff < 64 ∨ diroff < sectoff + 32 * nsect ∨
      size < diroff + 16 * ndir ∨ stroff < diroff + 16 * ndir ∨ size < stroff + strsz ∨ strsz = 0 ∨
      (bs.drop (stroff + strsz - 1)).headD 1 ≠ 0 ∨ (bs.drop stroff).headD 1 ≠ 0 ∨
      (sigoff ≠ 0 ∧ (sigoff + 3448 ≠ size ∨ sigoff < stroff + strsz)) then none
  else if sections.any (sectionBad size strsz) || content.any (fun s => decide (fld s 64 32 < diroff + 16 * ndir)) ||
      dirs.any dirBad || (dirs.map (fun d => d.1)).eraseDups.length != ndir then none
  else some ⟨bs, sigoff, stroff, strsz, sections, dirs.map (fun d => (d.1, recordsAt bs d.2.2.2.1 d.2.1 d.2.2.1))⟩

/-! ## Tables (R115, R118 to R127) -/

/-- Bytes that are UTF-8: `n` continuation bytes are due, the next one from lo to hi. -/
def utf8 : Nat → Nat → Nat → List Byte → Bool
  | n, _, _, [] => n == 0
  | 0, _, _, b :: t =>
    let v := b.toNat
    if v < 0x80 then utf8 0 0 0 t
    else if v < 0xC2 then false
    else if v < 0xE0 then utf8 1 0x80 0xBF t
    else if v < 0xF0 then utf8 2 (if v = 0xE0 then 0xA0 else 0x80) (if v = 0xED then 0x9F else 0xBF) t
    else if v < 0xF5 then utf8 3 (if v = 0xF0 then 0x90 else 0x80) (if v = 0xF4 then 0x8F else 0xBF) t
    else false
  | n + 1, lo, hi, b :: t => decide (lo ≤ b.toNat) && decide (b.toNat ≤ hi) && utf8 n 0x80 0xBF t
/-- The string table holds UTF-8 names (R115). -/
def namesBad (m : Cmo) : Bool := !utf8 0 0 0 ((m.bytes.drop m.stroff).take m.strsz)

/-- A symbol breaks R115. A group symbol's VALUE is the index of the group of its name, a region symbol's the id of the region of
its name. -/
def symbolBad (m : Cmo) (r : List Byte) : Bool :=
  let nm := m.name (recF r 0 32)
  (recF r 52 4 == 4 && !(m.table 9).any (fun g => recF g 32 16 == recF r 64 64 && m.name (recF g 0 32) == nm)) ||
  (recF r 52 4 == 5 && !(m.table 11).any (fun g => recF g 0 16 == recF r 64 64 && m.name (recF g 32 32) == nm)) ||
  recF r 56 8 != 0 || decide (5 < recF r 52 4) || decide (2 < recF r 48 4) || decide (m.strsz ≤ recF r 0 32) ||
  (decide (m.sections.length < recF r 32 16) && recF r 32 16 != 0xFFFF)

/-- The 32 bytes of the image that stand at a virtual address in a CODE section, as a bundle. -/
def Cmo.bundleAt (m : Cmo) (va : Nat) : Option (BitVec 256) :=
  (m.sections.find? (fun h => fld h 32 8 == 1 && decide (fld h 128 64 ≤ va) && decide (va + 32 ≤ fld h 128 64 + fld h 192 64))).map
    (fun h =>
      let o := va - fld h 128 64
      BitVec.ofNat 256 (ofLE (sliceB ((m.bytes.drop (fld h 64 32)).take (fld h 96 32)) o 32)))

/-- A window entry breaks R119. -/
def windowBad (r : List Byte) : Bool :=
  let size := recF r 37 17
  recF r 54 10 != 0 || recF r 13 3 != 0 || recF r 6 2 != 0 || size == 0 || decide (65536 < size) || size % 64 != 0 ||
  recF r 16 21 % 64 != 0 || decide (2 ^ 21 < recF r 16 21 + size) || decide (15 < recF r 8 5)

/-- An input entry breaks R120 by itself, given the number of tasks. A FMT from 0x10 to 0x1F, which R119 calls invalid, is refused
here too: DESIGN CHOICE, since R120 states no check of it (log 63). -/
def inputOff (ntask : Nat) (r : List Byte) : Bool :=
  recF r 160 96 != 0 || recF r 13 19 != 0 || recF r 6 2 != 0 || decide (15 < recF r 8 5) || recF r 64 64 % 64 != 0 ||
  recF r 32 32 % 64 != 0 || (recF r 128 32 != 0xFFFFFFFF && decide (ntask ≤ recF r 128 32))
/-- An input entry breaks R120 beside its task's windows. -/
def inputBad (wins : List (List Byte)) (r : List Byte) : Bool :=
  (match wins.find? (fun w => recF w 0 6 == recF r 0 6) with
   | some w => decide (recF w 37 17 < recF r 32 32)
   | none => true)

/-- A live-range entry breaks R122. Bits of VALUE that its table does not name (kinds 5, 10 and 11) are to be zero: DESIGN
CHOICE, since R122 does not say (log 60). One of kind 2, 7 or 8 outside its task's allocation, or of kind 10 or 11 for a port
that R6 does not have, breaks nothing, and a save takes nothing for it: DESIGN CHOICE (log 63). -/
def liveBad (r : List Byte) : Bool :=
  let kind := recF r 0 8
  let ix := recF r 8 8
  let len := recF r 32 32
  let v := recF r 64 64
  recF r 16 16 != 0 || (kind != 6 && len != 0) ||
  (match kind with
   | 1 => ix != 0
   | 2 => decide (ix < 0x40) || decide (0x5F < ix) || v != 0
   | 3 => decide (7 < ix) || v != 0
   | 4 => decide (3 < ix) || v != 0
   | 5 => ix != 0 || v % 2 != 0 || decide (255 < v)
   | 6 => ix != 0 || v % 64 != 0 || len % 64 != 0 || decide (2 ^ 21 < v + len)
   | 7 => decide (31 < ix) || v != 0
   | 8 => decide (15 < ix) || v != 0
   | 9 => decide (11 < ix) || v != 0
   | 10 | 11 => decide (14 < ix) || decide (3 < v)
   | 12 => decide (3 < ix) || v != 0
   | _ => true)

/-- A checkpoint entry breaks R121. -/
def ckptBad (m : Cmo) (r : List Byte) : Bool :=
  recF r 80 16 != 0 || recF r 0 64 % 32 != 0 || decide ((m.table 7).length < recF r 96 32 + recF r 64 16) ||
  (match m.bundleAt (recF r 0 64) with | some b => !bCkpt b | none => true)

/-- The bundles in reach of a task: those of its CODE section from its entry up to the next task's entry, since a task's code
stands together (R109): DEDUCED, since R121 does not define the reach (log 60). -/
def Cmo.reach (m : Cmo) (entry : Nat) : List Nat :=
  match m.sections.find? (fun h => fld h 32 8 == 1 && decide (fld h 128 64 ≤ entry) &&
      decide (entry + 32 ≤ fld h 128 64 + fld h 96 32)) with
  | none => []
  | some h =>
    let stop := ((m.table 3).map (fun r => recF r 320 64)).foldl (fun a e => if entry < e then min a e else a)
      (fld h 128 64 + fld h 96 32)
    (List.range ((stop - entry) / 32)).map (fun i => entry + 32 * i)

/-- A task entry breaks R118 with its windows, inputs and checkpoints (R121). -/
def taskBad (m : Cmo) (r : List Byte) : Bool :=
  let wins := sub (m.table 5) (recF r 192 32) (recF r 176 8)
  let ins := sub (m.table 4) (recF r 256 32) (recF r 224 16)
  let cks := sub (m.table 6) (recF r 288 32) (recF r 240 16)
  recF r 384 128 != 0 || recF r 184 8 != 0 || recF r 45 2 != 0 || (recF r 47 1 == 0 && !posOK (recF r 32 13)) ||
  decide (3 < recF r 64 8) || recF r 80 8 == 0 || decide (32 < recF r 72 8 + recF r 80 8) || decide (16 < recF r 88 8) ||
  recF r 96 32 == 0 || decide (64 < recF r 176 8) || recF r 320 64 % 32 != 0 || decide (m.strsz ≤ recF r 0 32) ||
  wins.length != recF r 176 8 || ins.length != recF r 224 16 || cks.length != recF r 240 16 ||
  (wins.map (fun w => recF w 0 6)).eraseDups.length != wins.length || ins.any (inputBad wins) ||
  (m.reach (recF r 320 64)).any (fun va => (match m.bundleAt va with | some b => bCkpt b | none => false) &&
    !cks.any (fun k => recF k 0 64 == va))

/-- A phase entry breaks R124. -/
def phaseBad (r : List Byte) : Bool :=
  let n := recF r 16 8
  recF r 24 40 != 0 || n == 0 || decide (4 < n) || recF r (64 + 32 * n) (192 - 64 - 32 * n) != 0
/-- A group template breaks R125. -/
def groupBad (m : Cmo) (r : List Byte) : Bool :=
  recF r 448 64 != 0 || recF r 48 16 != 0 || decide (255 < recF r 32 16) || decide (m.strsz ≤ recF r 0 32)
/-- A grant template breaks R126. Bits 14:11 of SRCCORE are to be zero: DESIGN CHOICE, since R126 does not name them (log 60). -/
def grantBad (r : List Byte) : Bool :=
  let len := recF r 96 32
  recF r 160 96 != 0 || recF r 56 8 != 0 || recF r 50 6 != 0 || recF r 48 2 == 0 || recF r 11 5 != 0 || recF r 27 4 != 0 ||
  !posOK (recF r 0 11) || (recF r 31 1 == 0 && !posOK (recF r 16 11)) || recF r 128 32 % 8 != 0 ||
  decide (2 ^ 21 < recF r 128 32 + 8) || len == 0 || len % 64 != 0 || recF r 64 32 % 64 != 0 || decide (2 ^ 21 < recF r 64 32 + len)
/-- A weight-region entry breaks R127. One that ends above 2^52 is refused too: DESIGN CHOICE (log 60). -/
def regionBad (m : Cmo) (r : List Byte) : Bool :=
  recF r 192 64 != 0 || recF r 17 15 != 0 || decide (4095 < recF r 0 16) || recF r 64 64 % 65536 != 0 ||
  recF r 128 64 % 65536 != 0 || decide (2 ^ 52 < recF r 64 64 + recF r 128 64) || decide (m.strsz ≤ recF r 32 32)

/-- Variants of a phase (R124, R294). -/
def phaseVars (phases : List (List Byte)) (p : Nat) : Nat :=
  match phases.find? (fun r => recF r 0 16 == p) with | some r => recF r 16 8 | none => 1

/-- Producers of a task. -/
def producers (m : Cmo) (r : List Byte) : List Nat :=
  ((sub (m.table 4) (recF r 256 32) (recF r 224 16)).map (fun i => recF i 128 32)).filter (· != 0xFFFFFFFF)
/-- Tasks left after removing, again and again, those whose producers are all removed: none where there is no cycle. -/
def unproduced (m : Cmo) (left : List Nat) : Nat → List Nat
  | 0 => left
  | n + 1 => unproduced m (left.filter (fun i => (producers m ((m.table 3).getD i [])).any left.contains)) n

/-- The section that holds the lock-keeper firmware (R243). -/
def Cmo.lkfw (m : Cmo) : Option (BitVec 256) :=
  m.sections.find? (fun h => m.name (fld h 0 32) == [0x2E, 0x6C, 0x6B, 0x66, 0x77])

/-- Step 2 of R292: the image, its tables, its phases, its groups, its grants (R347), its firmware (R243). -/
def imageBad (m : Cmo) : Bool :=
  let tasks := m.table 3
  let groups := m.table 9
  let grants := m.table 10
  (m.table 1).any (symbolBad m) || tasks == [] || tasks.any (taskBad m) || (m.table 5).any windowBad ||
  (m.table 4).any (inputOff tasks.length) || namesBad m ||
  (m.table 6).any (ckptBad m) || (m.table 7).any liveBad || (m.table 8).any phaseBad || groups.any (groupBad m) ||
  grants.any grantBad || (m.table 11).any (regionBad m) ||
  tasks.any (fun r => decide (phaseVars (m.table 8) (recF r 48 16) ≤ recF r 64 8)) ||
  tasks.any (fun r => (producers m r).any (fun p => decide (recF r 48 16 < recF (tasks.getD p []) 48 16))) ||
  unproduced m (List.range tasks.length) tasks.length != [] ||
  (List.range 384).any (fun i => decide (4 < (groups.filter (fun g => recF g (64 + i) 1 == 1)).length)) ||
  (List.range 384).any (fun i => decide (64 < (grants.filter (fun g => recF g 0 11 == (ctxPos (4 * i)).toNat)).length)) ||
  (match m.lkfw with
   | some h => fld h 32 8 != 2 || fld h 40 8 != 1 || fld h 192 64 == 0 || decide (131072 < fld h 192 64)
   | none => false)

/-- Step 3 of R292: an unsealed image, keys that the kernel does not hold, or a signature that fails (R128). A signature block
whose MAGIC, VERSION, reserved field or padding is bad is refused here, with cause 0x14: DESIGN CHOICE, since R292 does not
say at which step (log 60). -/
def sealBad (m : Cmo) : Bool :=
  let b := m.bytes.drop m.sigoff
  let msg := m.bytes.take m.sigoff
  let ed := BitVec.ofNat 256 (leAt b 8 32)
  let ml := BitVec.ofNat 256 (leAt b 40 32)
  m.sigoff == 0 || leAt b 0 4 != 0x474953 || leAt b 4 2 != 1 || leAt b 6 2 != 0 || leAt b 3445 3 != 0 || !Config.kernelHolds ed ml ||
  !Config.edVerify ed msg (BitVec.ofNat 512 (leAt b 72 64)) || !Config.mlVerify ml msg ((b.drop 136).take 3309)

/-! ## The launch record (R290, R377) -/

/-- Wharf window of a die in a record: base and size in bytes. -/
def recWin (r : BitVec 1024) (d : Nat) : Nat × Nat := (4096 * fld r (256 + 32 * d) 16, 4096 * fld r (272 + 32 * d) 16)

/-- Entry k of a record's route table. -/
def State.routeAt (s : State) (r : BitVec 1024) (k : Nat) : BitVec 128 :=
  BitVec.ofNat 128 (ofLE (s.readHost (fld r 576 64 + 16 * k) 16))
/-- A route-table entry breaks R377. -/
def routeEntBad (e : BitVec 128) : Bool :=
  let v (d j : Nat) : Bool := bit e (16 * d + 4 * j + 3)
  fld e 71 57 != 0 ||
  (List.range 4).any (fun d => (List.range 4).any (fun j =>
    (v d j && decide (5 < fld e (16 * d + 4 * j) 3)) || (v d j && decide (0 < j) && !v d (j - 1)))) ||
  !((List.range 4).any (fun d => v d 0))
/-- Two entries with PV set carry one PSLOT. -/
def slotTwice : List Nat → Bool
  | [] => false
  | a :: t => t.contains a || slotTwice t

/-- Step 1 of R292. -/
def recordBad (s : State) (r : BitVec 1024) : Bool :=
  let ndev := fld r 112 16
  let rank := fld r 96 16
  let peers := (List.range ndev).filter (· != rank)
  let routes := peers.map (s.routeAt r)
  fld r 640 384 != 0 || fld r 160 32 != 0 || fld r 84 12 != 0 || fld r 78 2 != 0 || bit r 71 || decide (ndev ≤ rank) ||
  !bit (s.mreg 0x330) (fld r 64 4) ||
  (List.range 4).any (fun d =>
    let w := recWin r d
    decide (16384 * 4096 < w.1 + w.2) || s.launches.any (fun l =>
      let v := recWin l.info d
      w.2 != 0 && v.2 != 0 && meets w.1 w.2 v.1 v.2)) ||
  (decide (1 < ndev) && (fld r 576 64 == 0 || routes.any routeEntBad ||
    slotTwice ((routes.filter (fun e => bit e 70)).map (fun e => fld e 64 6))))

/-! ## Mapping (R292 steps 5 and 6) -/

/-- A space identifier that no space and no launch holds (R70, R292). -/
def State.freeSpid (s : State) : Option Nat :=
  let l := ((List.range 4096).drop 1).filter (fun n => !bit (s.space n) 0 && !s.launches.any (fun q => q.spid == n))
  if l = [] then none else l[Config.spidPick s.nextId % l.length]?
/-- A launch identifier that no launch carries (R70, R292). -/
def State.freeLaunch (s : State) : Word :=
  let n := Config.launchPick s.nextId
  ((((List.range (s.launches.length + 2)).map (fun i => BitVec.ofNat 64 (n + i))).find? (fun w =>
    w != 0 && !s.launches.any (fun l => l.id == w))).getD 1)

/-- A space with an empty level-1 table, its descriptor written and loaded (R333). -/
def newSpace (s : State) (part spid : Nat) : Except Stuck State :=
  (needFrame s part []).map (fun r =>
    let d : BitVec 128 := BitVec.ofNat 128 (1 + part * 2 ^ 32 + r.1 * 2 ^ 64)
    { ((r.2.emptyFrame r.1).putMem (s.spacePlace spid) (leBytes 16 d.toNat)) with spaces := NMap.put r.2.spaces spid d })

/-- One page of a space mapped with more permissions, given a frame where it has none (R334). -/
def mapPage (s : State) (spid va perm : Nat) : Except Stuck State :=
  (needEntry s spid va false [(spid, va / 65536)]).bind (fun r =>
    let e := r.2.pteAt r.1
    if bit e 0 then .ok (r.2.putWord r.1 (BitVec.ofNat 64 (e.toNat ||| perm * 4)))
    else (needFrame r.2 (spPart (s.space spid)) [(spid, va / 65536)]).map (fun q =>
      (q.2.emptyFrame q.1).putWord r.1 (BitVec.ofNat 64 (q.1 + 3 + perm * 4))))
/-- Pages of a range mapped. -/
def mapPages (s : State) (spid perm : Nat) : List Nat → Except Stuck State
  | [] => .ok s
  | va :: t => (mapPage s spid va perm).bind (fun u => mapPages u spid perm t)
/-- The kernel touches a page of a space: a compressed one is expanded (R339, R342). -/
def State.touch (s : State) (spid va : Nat) : Except Stuck State := expandPage s spid va [(spid, va / 65536)]
/-- Bytes written by the kernel to mapped pages of a space, page after page. -/
def State.putVa (s : State) (spid va : Nat) (bs : List Byte) : Except Stuck State :=
  if bs = [] then .ok s
  else (pagesOf va bs.length).foldl (fun (o : Except Stuck State) p => (o.bind (fun s => s.touch spid p)).map (fun s =>
    match s.walk spid p with
    | .leaf _ e large => s.putMem (leafPa e large p) (sliceB bs (p - va) (min (va + bs.length) ((p / 65536 + 1) * 65536) - p))
    | .fault | .asleep _ => s)) (.ok s)
/-- Bytes that the kernel reads from mapped pages of a space, page after page. -/
def State.getVa (s : State) (spid va n : Nat) : Except Stuck (State × List Byte) :=
  if n = 0 then .ok (s, [])
  else (pagesOf va n).foldl (fun (o : Except Stuck (State × List Byte)) p =>
    (o.bind (fun q => (q.1.touch spid p).map (fun u => (u, q.2)))).map (fun q => match q.1.walk spid p with
      | .leaf _ e large => (q.1, q.2 ++ Mem.read q.1.mem (leafPa e large p) (min (va + n) ((p / 65536 + 1) * 65536) - p))
      | .fault | .asleep _ => q)) (.ok (s, []))

/-- Every section mapped at its ADDR with the permissions of its FLAGS, its contents written, the rest zero. -/
def mapSections (s : State) (m : Cmo) (spid : Nat) : List (BitVec 256) → Except Stuck State
  | [] => .ok s
  | h :: t =>
    let va := fld h 128 64
    let n := fld h 192 64
    if n = 0 then mapSections s m spid t
    else ((mapPages s spid (fld h 40 3) (pagesOf va n)).bind (fun u =>
        u.putVa spid va ((m.bytes.drop (fld h 64 32)).take (fld h 96 32)))).bind (fun u => mapSections u m spid t)

/-- Pages of storage regions given frames where no section maps them. -/
def mapStorage (s : State) (spid : Nat) : List (BitVec 512) → Except Stuck State
  | [] => .ok s
  | r :: t =>
    if !bit r 16 || fld r 128 64 = 0 then mapStorage s spid t
    else (mapPages s spid 1 (pagesOf (fld r 64 64) (fld r 128 64))).bind (fun u => mapStorage u spid t)

/-- The tag of the page of an address: of its frame, or of a page that has been compressed since it was mapped (R360). -/
def State.tagPage (s : State) (va id : Nat) : Walk → State
  | .fault | .asleep _ => s
  | .leaf _ e large =>
    if bit e 5 then { s with tier := s.tier.map (fun t => if t.1 = ptePa e / 32768 then
      (t.1, { t.2 with tags := NMap.put t.2.tags (va % pageBytes large / 65536) (BitVec.ofNat 16 id) }) else t) }
    else s.setTag (leafPa e large va / 65536 * 65536) (BitVec.ofNat 16 id)
/-- Frames of a region are tagged; none where one carries another id (R360). -/
def tagRegion (s : State) (spid : Nat) (r : BitVec 512) : Option State :=
  let id := fld r 0 16
  (pagesOf (fld r 64 64) (max (fld r 128 64) 1)).foldl (fun (o : Option State) p => match o with
    | none => none
    | some s =>
      match s.tagAt 425 spid p with
      | some g => if g = id then some s else none
      | none => some (s.tagPage p id (s.walk spid p))) (some s)
/-- Frames of every region that is not empty. -/
def tagRegions (s : State) (spid : Nat) : List (BitVec 512) → Option State
  | [] => some s
  | r :: t => if fld r 128 64 = 0 then tagRegions s spid t else match tagRegion s spid r with
    | none => none
    | some u => tagRegions u spid t
/-- Storage regions read through the storage port into their frames (R379). -/
def readStorage (s : State) (spid : Nat) (l : List (BitVec 512)) : Except Stuck State :=
  l.foldl (fun (o : Except Stuck State) r => o.bind (fun s => if bit r 16 then
    s.putVa spid (fld r 64 64) ((List.range (fld r 128 64)).map (fun i => Config.storageByte s.nextId (fld r 64 64 + i))) else .ok s))
    (.ok s)
/-- Every region is checked against its DIGEST (R127): the state after the reads, and whether all of them are good. -/
def checkDigests (s : State) (spid : Nat) : List (BitVec 512) → Except Stuck (State × Bool)
  | [] => .ok (s, true)
  | r :: t => (s.getVa spid (fld r 64 64) (fld r 128 64)).bind (fun q =>
      if Config.sha256 q.2 != BitVec.ofNat 256 (fld r 256 256) then .ok (q.1, false) else checkDigests q.1 spid t)

/-! ## Completion records and dependences (R293, R298) -/

/-- A completion record (R298). -/
def recordBytes (htag launch : Word) (verdict status cause ftask fcore ncorr nphase stmt : Nat) (deptag : Word) : List Byte :=
  leBytes 64 (htag.toNat + launch.toNat * 2 ^ 64 + verdict * 2 ^ 128 + status * 2 ^ 132 + cause * 2 ^ 136 + ftask * 2 ^ 144 +
    fcore * 2 ^ 176 + ncorr * 2 ^ 192 + nphase * 2 ^ 224 + stmt * 2 ^ 256 + deptag.toNat * 2 ^ 320)
/-- A refusal (R292). -/
def refuse (s : State) (r : BitVec 1024) (cause : Nat) : State :=
  s.completion (recordBytes (BitVec.ofNat 64 (fld r 0 64)) 0 0 1 cause 0xFFFFFFFF 0 0 0 0 0)

/-- The last 1,024 completions of a partition (R292 step 4). -/
def State.doneOf (s : State) (part : Nat) : List (Nat × Word × Nat × Nat) :=
  let l := s.completed.filter (fun e => e.1 == part)
  l.drop (l.length - 1024)
/-- HTAGs that a record names as dependences (R290). -/
def State.depsOf (s : State) (r : BitVec 1024) : List Word :=
  (List.range (fld r 80 4)).map (fun i => BitVec.ofNat 64 (ofLE (s.readHost (fld r 448 64 + 8 * i) 8)))
/-- Step 4 of R292. -/
def depsBad (s : State) (r : BitVec 1024) : Bool :=
  let part := fld r 64 4
  (s.depsOf r).any (fun h => !s.launches.any (fun l => l.part == part && l.htag == h) && !(s.doneOf part).any (fun e => e.2.1 == h))

/-- The dependences of a record that have completed already, and whether they did so TAINTED or CANCELLED (R293). -/
def State.depsDone (s : State) (part : Nat) (deps : List Word) : List (Word × Bool) :=
  deps.filterMap (fun h =>
    if s.launches.any (fun q => q.part == part && q.htag == h) then none
    else (((s.doneOf part).reverse).find? (fun e => e.2.1 == h)).map (fun e => (h, e.2.2.1 == 2 || e.2.2.2 == 4)))
/-- A dependence has not completed. -/
def Launch.depWaits (l : Launch) (h : Word) : Bool := !l.depOut.any (fun e => e.1 == h)
/-- A dependence has completed TAINTED or CANCELLED (R293). -/
def Launch.depTaint (l : Launch) (h : Word) : Bool := l.depOut.any (fun e => e.1 == h && e.2)
/-- A launch of a partition has completed: the launches that name it note how (R293). -/
def State.noteDone (s : State) (part : Nat) (htag : Word) (verdict status : Nat) : State :=
  { s with
    completed := s.completed ++ [(part, htag, verdict, status)]
    launches := s.launches.map (fun l =>
      if l.part = part ∧ l.deps.contains htag ∧ l.depWaits htag then
        { l with depOut := l.depOut ++ [(htag, verdict == 2 || status == 4)] } else l) }

/-! ## Loading (R242, R289, R347) -/

/-- Dies that a launch uses: those its tasks are placed on, or all where a task may run anywhere. -/
def Launch.dies (l : Launch) : List Nat :=
  if l.tasks.any (fun t => bit t 47) then [0, 1, 2, 3]
  else (List.range 4).filter (fun d => l.tasks.any (fun t => fld t 41 2 == d))
/-- The firmware of a launch's image, where it has any (R242). -/
def Launch.fw (l : Launch) : Option (List Byte) :=
  match parseImage l.image with
  | none => none
  | some m => m.lkfw.map (fun h => (l.image.drop (fld h 64 32)).take (fld h 96 32))
/-- Lock-keepers of a list of dies. -/
def keepersOf (dies : List Nat) : List Nat := dies.flatMap (fun d => (List.range 6).map (fun p => 6 * d + p))
/-- A hart number free on every lock-keeper of the launch's dies: no other launch that uses one of them keeps it (R243). -/
def State.freeHart (s : State) (l : Launch) : Option Nat :=
  (List.range 4).find? (fun h => !s.launches.any (fun q => q.hart == some h && q.id != l.id && q.dies.any l.dies.contains))
/-- The kernel gives a launch whose image holds firmware its hart number, where one is free (R243). -/
def giveHart (s : State) (id : Word) : State :=
  match s.launchOf id with
  | none => s
  | some l => if l.fw.isNone || l.hart.isSome then s else s.updLaunch id (fun q => { q with hart := s.freeHart l })
/-- A hart starts on each of a launch's lock-keepers, with the firmware at its slot's address 0: a0 holds LKSELF and a1 the
launch identifier, every other register is zero, and the floating-point and vector units are enabled (R242, R243). -/
def startHarts (s : State) (l : Launch) (h : Nat) (fw : List Byte) : State :=
  (keepersOf l.dies).foldl (fun s k =>
    s.setHart k h { Hart.init with
      launch := some l.id, fpOn := true, vecOn := true,
      x := NMap.put (NMap.put [] 10 (lkSelf k l.rank)) 11 l.id, fw := Mem.write [] 0 fw }) s

/-- The kernel places a slot for a launch's space in the entries of the lock-keepers that may act for it: those of its dies, and
the homes of the cores its grants name; and of the storage port where it has a STORAGE region (R346). -/
def giveSlots (s : State) (l : Launch) (grants : List (List Byte)) : State :=
  let ks := keepersOf l.dies ++ grants.map (fun r => homeOf (ctxOfPos (recF r 0 11) / 4)) ++ (if l.ndev = 1 then [] else [farKeeper])
  ((ks.map (400 + ·)) ++ (if l.regions.any (fun r => bit r 16) then [425] else [])).foldl (fun s m => s.giveSlot m l.spid) s

/-- The grant tables of the cores that a launch's templates name, and their flag words reset; one in a part that another launch
holds is zero when the part passes to this one (R187, R284, R347). -/
def loadGrants (s : State) (launch : Word) (l : List (List Byte)) : State :=
  l.foldl (fun s r =>
    let core := ctxOfPos (recF r 0 11) / 4
    s.updCore core (fun k => { (if k.heldBy.any (fun e => e.1 == recF r 128 32 / 64) then k
        else k.putTile (recF r 128 32) (List.replicate 8 0)) with
      grants := k.grants ++ [⟨launch, BitVec.ofNat 256 (ofLE r)⟩] })) s

/-- A launch with the contents of its record and image. -/
def makeLaunch (s : State) (r : BitVec 1024) (m : Cmo) (id : Word) (spid : Nat) : Launch :=
  let n := (m.table 3).length
  let bv (k w : Nat) : List (BitVec w) := (m.table k).map (fun e => BitVec.ofNat w (ofLE e))
  { id := id, info := r, spid := spid, image := m.bytes, sections := m.sections, tasks := bv 3 512, inputs := bv 4 256,
    windows := bv 5 64, ckpts := bv 6 128, lives := bv 7 128, phases := bv 8 192, groups := bv 9 512, regions := bv 11 512,
    args := (List.range (16 * n)).map (fun i => (i, BitVec.ofNat 64 (ofLE (s.readHost (fld r 384 64 + 8 * i) 8)))),
    classes := if fld r 512 64 = 0 then [] else (List.range 384).map (fun i =>
      (i, BitVec.ofNat 2 (ofLE (s.readHost (fld r 512 64 + i / 4) 1) / 2 ^ (2 * (i % 4))))),
    routes := if fld r 112 16 = 1 then [] else ((List.range (fld r 112 16)).filter (· != fld r 96 16)).map (fun k => (k, s.routeAt r k)),
    deps := s.depsOf r, stmt := 0, tstat := [], hart := none, stage := 0, released := false, deptag := 0, phase := 0, phaseOn := false,
    variant := 0, nphase := 0, phaseStart := 0, lastRet := [], verdict := 0, ncorr := 0, fault := none, closedSeq := [],
    closedAq := [], depOut := s.depsDone (fld r 64 4) (s.depsOf r), gone := [] }

/-- What the kernel's mapping for a record comes to: it waits for a sleeping stack (R357), the record is refused with a cause, or the
launch stands in its queue. A refusal leaves what the search for frames has done (R342). -/
inductive Admit where
  | wait
  | refused (cause : Nat) (s : State)
  | done (s : State)
  deriving DecidableEq, Repr

/-- The kernel gets no frame: what it had set up of a space is undone (R292). -/
def Stuck.fate (undo : State → State) : Stuck → Admit
  | .wait _ => .wait
  | .spent t => .refused 0x13 (undo t)
/-- Step 6 of R292, on a space whose sections are mapped: the state after it, or how the record fares. -/
def admitRegions (s : State) (spid : Nat) (regions : List (BitVec 512)) : Except Admit State :=
  let undo (t : State) : State := freeSpace t spid
  match tagRegions s spid regions with
  | none => .error (.refused 0x01 (undo s))
  | some s1 =>
    match (readStorage s1 spid regions).bind (fun t => checkDigests t spid regions) with
    | .error e => .error (e.fate undo)
    | .ok (t, good) => if good then .ok t else .error (.refused 0x14 (undo t))
/-- Steps 5 and 6 of R292 and what follows. -/
def admitLaunch (s : State) (r : BitVec 1024) (m : Cmo) : Admit :=
  let part := fld r 64 4
  let id := s.freeLaunch
  let regions := (m.table 11).map (fun e => BitVec.ofNat 512 (ofLE e))
  match s.freeSpid with
  | none => .refused 0x13 s
  | some spid =>
    match (s.firstAsleep [s.spacePlace spid]).or (s.kernelAsleep []) with
    | some _ => .wait
    | none => match newSpace s part spid with
      | .error e => e.fate (fun t => t)
      | .ok s0 => match (mapSections s0 m spid m.sections).bind (fun t => mapStorage t spid regions) with
        | .error e => e.fate (fun t => freeSpace t spid)
        | .ok s1 => match admitRegions s1 spid regions with
          | .error a => a
          | .ok s3 =>
            let s4 := loadGrants s3 id (m.table 10)
            let l := makeLaunch s r m id spid
            .done (giveHart (giveSlots { s4 with launches := s4.launches ++ [l], nextId := s4.nextId + 1 } l (m.table 10)) id)

/-- The record in the launch ring that the kernel takes next, while the ring's counts allow it (R373). -/
def State.nextRecord (s : State) : Option (BitVec 1024) :=
  let n := s.mreg 0x110 - s.mreg 0x118
  let size := 2 ^ min (s.mreg 0x108).toNat 16
  if n = 0 ∨ size < n.toNat then none
  else some (BitVec.ofNat 1024 (ofLE (s.readHost ((s.mreg 0x100).toNat + 128 * ((s.mreg 0x118).toNat % size)) 128)))

/-- The cause that refuses a record before anything is set up: steps 1 to 4 of R292. -/
def refusal (s : State) (r : BitVec 1024) : Option Nat :=
  if recordBad s r then some 0x01
  else match parseImage (s.readHost (fld r 192 64) (fld r 128 32)) with
    | none => some 0x01
    | some m => if imageBad m then some 0x01 else if sealBad m then some 0x14 else if depsBad s r then some 0x01 else none

/-- The record is accepted or refused (R292), or waits for a sleeping stack (none) (R357). -/
def takeRecord (s : State) (r : BitVec 1024) : Option State :=
  match refusal s r with
  | some cause => some (refuse s r cause)
  | none => match parseImage (s.readHost (fld r 192 64) (fld r 128 32)) with
    | none => some (refuse s r 0x01)
    | some m => match admitLaunch s r m with
      | .wait => none
      | .refused cause t => some (refuse t r cause)
      | .done t => some t

end Sys2Proof.Machine
end

