-- ==== Sys2Proof/Machine/Launches.lean ====
section
/-! DEFINITION. The life of a launch: acceptance and its queue (R292, R293), phases and variants (R294 to R296), binding,
staging, start and retirement of tasks (R283 to R287, R300 to R303), completion (R299), and quiesce (R348, R349). -/

namespace Sys2Proof.Machine

/-! ## Phases and variants (R294, R295) -/

/-- Phase of task i. -/
def Launch.phaseOf (l : Launch) (i : Nat) : Nat := fld (l.tasks.getD i 0) 48 16
/-- Variant of task i. -/
def Launch.variantOf (l : Launch) (i : Nat) : Nat := fld (l.tasks.getD i 0) 64 8
/-- Standing of task i. -/
def Launch.stat (l : Launch) (i : Nat) : TaskStat := NMap.get .waiting l.tstat i
/-- Tasks of a phase. -/
def Launch.inPhase (l : Launch) (p : Nat) : List Nat := (List.range l.tasks.length).filter (fun i => l.phaseOf i == p)
/-- The first phase from a number on that has tasks. -/
def Launch.phaseFrom (l : Launch) (p : Nat) : Option Nat :=
  ((List.range l.tasks.length).map l.phaseOf).foldl (fun (o : Option Nat) q =>
    if q < p then o else match o with | none => some q | some r => some (min q r)) none

/-- Weight W(v, k) of a phase entry (R124). -/
def weight (e : BitVec 192) (v k : Nat) : Nat := fld e (64 + 32 * v + 8 * k) 8
/-- Sum of a variant's weights. -/
def weightSum (e : BitVec 192) (v : Nat) : Nat := ((List.range 4).map (weight e v)).foldl (· + ·) 0
/-- The phase entry of a phase; zero where the image has none, which names one variant and no share (R294). -/
def Launch.phaseEntry (l : Launch) (p : Nat) : BitVec 192 := (l.phases.find? (fun e => fld e 0 16 == p)).getD 0
/-- Variants of a phase. -/
def Launch.nvar (l : Launch) (p : Nat) : Nat := max 1 (fld (l.phaseEntry p) 16 8)

/-- A rational that is not negative, as numerator and denominator. -/
abbrev Ratio := Nat × Nat
/-- The larger of two rationals. -/
def maxRatio (a b : Ratio) : Ratio := if a.1 * b.2 < b.1 * a.2 then b else a

/-- The measured rates of the phase just ended, by class: T(k) over the share of the chosen variant (R295). -/
def Launch.rates (l : Launch) : List (Nat × Ratio) :=
  let e := l.phaseEntry l.phase
  (List.range 4).filterMap (fun k =>
    match l.lastRet.find? (fun r => r.1 == k) with
    | some r =>
      if weight e l.variant k = 0 then none
      else some (k, (min ((r.2 - l.phaseStart) * 5 / 6) (2 ^ 32 - 1) * weightSum e l.variant, weight e l.variant k))
    | none => none)
/-- P(v) of R295; a variant whose weights are all zero has no share of any class. -/
def predict (e : BitVec 192) (rates : List (Nat × Ratio)) (v : Nat) : Ratio :=
  let worst : Ratio := rates.foldl (fun a r => maxRatio a r.2) (0, 1)
  (List.range 4).foldl (fun a k =>
    let r := ((rates.find? (fun r => r.1 == k)).map (fun r => r.2)).getD worst
    maxRatio a (weight e v k * r.1, max 1 (weightSum e v) * r.2)) (0, 1)
/-- The variant with the smallest prediction, the lowest of equals. -/
def bestOf (e : BitVec 192) (rates : List (Nat × Ratio)) (n : Nat) : Nat :=
  (List.range n).foldl (fun b v =>
    let x := predict e rates v
    let y := predict e rates b
    if x.1 * y.2 < y.1 * x.2 then v else b) 0
/-- The selector's choice for a phase (R295). -/
def Launch.choose (l : Launch) (p : Nat) (first : Bool) : Nat :=
  if bit l.info 70 || first || l.nvar p == 1 || l.rates == [] then 0 else bestOf (l.phaseEntry p) l.rates (l.nvar p)

/-- A phase begins with a variant: the tasks of its other variants are skipped (R294, R295). -/
def Launch.begin (l : Launch) (p v wall : Nat) : Launch :=
  let l1 := (l.inPhase p).foldl (fun (l : Launch) i => if l.variantOf i = v then l else l.setTask i .skipped) l
  { l1 with phase := p, variant := v, phaseOn := true, nphase := l.nphase + 1, phaseStart := wall, lastRet := [] }

/-- Every task of the phase has retired or is skipped. -/
def Launch.phaseDone (l : Launch) : Bool :=
  l.phaseOn && (l.inPhase l.phase).all (fun i => l.stat i == .retired || l.stat i == .skipped)

/-- PHASE_BOUNDARY: the phase of a launch has ended, and the next begins, or the launch's last has ended (R294, R295). -/
def execPhaseBoundary (launch : Word) (s : State) : Host.Outcome State Fault Refusal :=
  match s.launchOf launch with
  | none => .next s
  | some l =>
    if l.stage != 2 || !l.phaseDone then .next s
    else .next (s.updLaunch launch (fun q => match q.phaseFrom (q.phase + 1) with
      | some p => q.begin p (q.choose p false) s.wall
      | none => { q with phaseOn := false, stage := 4 }))

/-! ## The queue (R292, R293, R300) -/

/-- The launch leaves the queue and its first phase begins, once it has a hart where its image holds firmware (R243). -/
def activate (s : State) (l : Launch) : State :=
  let go (s : State) : State := s.updLaunch l.id (fun q =>
    ({ q with stage := 2 }).begin ((q.phaseFrom 0).getD 0) 0 s.wall)
  match l.fw, l.hart with
  | none, _ => go s
  | some _, none => s
  | some fw, some h => go (startHarts s l h fw)

/-- A queued launch whose dependences have completed starts, or is held (R293). -/
def settleOne (s : State) (id : Word) : State :=
  match s.launchOf id with
  | none => s
  | some l =>
    if l.stage != 0 || l.deps.any l.depWaits then s
    else match l.deps.find? l.depTaint with
    | some h =>
      if l.released then activate s l
      else (s.updLaunch id (fun q => { q with stage := 1, deptag := h })).completion
        (recordBytes l.htag l.id l.verdict 2 0 0xFFFFFFFF 0 l.ncorr 0 0 h)
    | none => activate s l
/-- Every queued launch, in order of acceptance. One that found no hart number free takes one when it can (R243). -/
def settleQueue (s : State) : State := (s.launches.map (fun l => l.id)).foldl (fun s i => settleOne (giveHart s i) i) s

/-- LAUNCH_ACCEPTANCE: the kernel takes the next launch record of the ring (R292, R373); it tries again while a stack that its mapping
needs sleeps (R357). -/
def execLaunchAcceptance (s : State) : Host.Outcome State Fault Refusal :=
  if !s.open' || s.closed then .next s
  else match s.nextRecord with
  | none => .next s
  | some r => .next (match takeRecord (s.setMreg 0x118 (s.mreg 0x118 + 1)) r with
    | some t => settleQueue t
    | none => s)

/-! ## Eligibility and binding (R283, R300 to R302) -/

/-- The allocation that a task entry asks for, on a context that holds the task (R118, R119). -/
def taskCtx (l : Launch) (i : Nat) : Ctx :=
  let t := l.tasks.getD i 0
  let wins := sub l.windows (fld t 192 32) (fld t 176 8)
  { Ctx.init with
    stat := .staging, task := some ⟨l.id, i⟩, spid := l.spid, vbase := fld t 72 8, vcount := fld t 80 8
    planes := BitVec.ofNat 32 (fld t 128 32), bays := BitVec.ofNat 16 (fld t 160 16)
    win := wins.foldl (fun m w => NMap.put m (fld w 0 6) ⟨fld w 16 21, fld w 37 17⟩) []
    ttag := wins.foldl (fun m w => NMap.put m (fld w 0 6) (Fmt.ofCodeRaw (fld w 8 5))) [] }

/-- A producer has retired, or was skipped. -/
def Launch.produced (l : Launch) (p : Nat) : Bool := p == 0xFFFFFFFF || l.stat p == .retired || l.stat p == .skipped
/-- Task i is eligible (R301). -/
def Launch.eligible (l : Launch) (i : Nat) : Bool :=
  l.stage == 2 && l.phaseOn && l.phaseOf i == l.phase && l.stat i == .waiting &&
  (l.inputsOf i).all (fun e => l.produced (fld e 128 32))

/-- Task i may be bound to context c: the context is free (R302), the allocation fits (R283), and its core has room for
the space (R346). -/
def State.mayBind (s : State) (l : Launch) (i c : Nat) : Bool :=
  (s.ctx c).task.isNone && s.fits c (taskCtx l i) l.id && s.slotFree (c / 4) l.spid
/-- A saved task may be given its context again: its launch has it as pre-empted, the context is free, and the allocation fits (R283,
R302, R309). -/
def State.mayRestore (s : State) (v : Saved) : Bool :=
  v.live && (s.ctx v.c).task.isNone && s.fits v.c v.kept v.task.launch && s.slotFree (v.c / 4) v.spid &&
  !s.launches.any (fun l => l.id == v.task.launch && (l.stage != 2 || l.stat v.task.task != .preempted v.c))
/-- The context's previous task has retired (R303), and no command of another launch's task is still to read or write a part
of the core that the allocation of `x` takes in, so that no launch sees another's bytes (R284). -/
def State.clearFor (s : State) (c : Nat) (x : Ctx) : Bool :=
  !s.launches.any (fun l => l.tstat.any (fun e => e.2 == .ended c && !s.saved.any (fun v => v.lost && v.task == ⟨l.id, e.1⟩))) &&
  !(s.core (c / 4)).cmds.any (fun k => k.task.launch != x.launchId &&
    (x.win.any (fun w => k.holds w.2.off w.2.size) ||
     (match k.bay with | some b => x.bays.getLsbD b | none => false) ||
     (match k.plane with | some p => x.planes.getLsbD p | none => false)))
/-- The context that R302 gives task i. -/
def State.placeFor (s : State) (l : Launch) (i : Nat) : Option Nat :=
  let p := fld (l.tasks.getD i 0) 32 16
  if 32768 ≤ p then (List.range 1536).find? (s.mayBind l i)
  else if s.mayBind l i (ctxOfPos (p % 8192)) then some (ctxOfPos (p % 8192)) else none

/-- Launches in the order of keys 1 to 3 of R300 for a die: priority, partitions in turn after the last one bound, and
acceptance. -/
def State.launchOrder (s : State) (die : Nat) : List Launch :=
  let last := NMap.get 15 s.lastPart die
  (List.range 4).flatMap (fun p => (List.range 16).flatMap (fun j =>
    s.launches.filter (fun l => l.prio == p && l.part == (last + 1 + j) % 16)))
/-- A candidate for a free context: the launch, the task, and what is saved of a task that was pre-empted. -/
structure Cand where
  launch : Launch
  ix : Nat
  saved : Option Saved
  deriving DecidableEq, Repr
/-- A free context with the candidate that it is offered to. -/
structure Offer where
  cand : Cand
  c : Nat
  deriving DecidableEq, Repr

/-- The candidates of a die, in the order of R300: within a launch its pre-empted tasks stand ahead of the others (R309), and each of
the two go by ascending index. -/
def State.candidates (s : State) (die : Nat) : List Cand :=
  (s.launchOrder die).flatMap (fun l =>
    ((s.saved.filter (fun v => v.task.launch == l.id && dieOf v.c == die && s.mayRestore v)).mergeSort (fun v w =>
      decide (v.task.task ≤ w.task.task))).map (fun v => ⟨l, v.task.task, some v⟩) ++
    ((List.range l.tasks.length).filter l.eligible).map (fun i => ⟨l, i, none⟩))
/-- The context of a die that a candidate may use, of those that stand to no other: its own, or the lowest of the die (R302). -/
def State.placeOn (s : State) (die : Nat) (taken : List Nat) (e : Cand) : Option Nat :=
  let p := fld (e.launch.tasks.getD e.ix 0) 32 16
  let ok (c : Nat) : Bool := !taken.contains c && s.mayBind e.launch e.ix c
  match e.saved with
  | some v => if taken.contains v.c then none else some v.c
  | none =>
    if 32768 ≤ p then ((List.range 384).map (fun j => 384 * die + j)).find? ok
    else [ctxOfPos (p % 8192)].find? (fun c => dieOf c == die && ok c)
/-- Each free context of a die with the first candidate that may use it; `gone` are the tasks that a lower die has a context for
(R300, R302). -/
def State.offersOn (s : State) (die : Nat) (gone : List TaskRef) : List Offer :=
  (s.candidates die).foldl (fun l e =>
    if e.saved.isNone && gone.contains ⟨e.launch.id, e.ix⟩ then l
    else match s.placeOn die (l.map (fun o => o.c)) e with
    | some c => l ++ [⟨e, c⟩]
    | none => l) []
/-- The tasks that a context is offered to on the dies below a number. -/
def State.offeredBelow (s : State) : Nat → List TaskRef
  | 0 => []
  | d + 1 => let gone := s.offeredBelow d; gone ++ (s.offersOn d gone).map (fun o => ⟨o.cand.launch.id, o.cand.ix⟩)
/-- Each free context of a die with the candidate that it is offered to. -/
def State.offers (s : State) (die : Nat) : List Offer := s.offersOn die (s.offeredBelow die)
/-- The first task that a die's scheduler is to bind: launch, task, context. -/
def State.candidate (s : State) (die : Nat) : Option (Launch × Nat × Nat) :=
  ((s.offers die).find? (fun o => o.cand.saved.isNone)).map (fun o => (o.cand.launch, o.cand.ix, o.c))
/-- The saved task to which context c is offered. -/
def State.restorable (s : State) (c : Nat) : Option Saved :=
  ((s.offers (dieOf c)).find? (fun o => o.c == c)).bind (fun o => o.cand.saved)

/-- A task is bound to a context, whose core may act for its space from now on (R302, R346). -/
def bindTask (s : State) (l : Launch) (i c : Nat) : State :=
  let old := s.ctx c
  let y := { taskCtx l i with loadQ := old.loadQ, storeQ := old.storeQ, age := old.age }
  let s1 := ((s.setCtx c y).giveSlot (c / 4) l.spid).updLaunch l.id (fun q => q.setTask i (.bound c))
  { s1 with lastPart := NMap.put s1.lastPart (dieOf c) l.part, bindings := s1.bindings.filter (· != c) ++ [c] }

/-- TASK_BINDING: a die task scheduler binds its first candidate (R300, R302). -/
def execTaskBinding (die : Nat) (s : State) : Host.Outcome State Fault Refusal :=
  .next (match s.candidate die with | some e => bindTask s e.1 e.2.1 e.2.2 | none => s)

/-- CONTEXT_RESTORE: a pre-empted task to which its context is offered returns to it, once its place is clear; that is a binding
of its die (R300, R309), and its save area is free again. A
malformed image aborts the launch (R330), and one with an uncorrectable error is a context lost (R353). -/
def execContextRestore (c : Nat) (s : State) : Host.Outcome State Fault Refusal :=
  match s.restorable c with
  | none => .next s
  | some v =>
    let n := min (Mem.readLE s.mem (v.addr + 48) 8) (2 ^ 26)
    let bs := Mem.read s.mem v.addr n
    if !s.clearFor c v.kept then .next s
    else match s.firstAsleep (v.addr :: v.frames) with
    | some pa => .next (s.holdFor pa (.restore c))
    | none =>
    if marksHit s.marks v.addr n then .next (loseSaved s v)
    else match readImage bs c with
    | none => .next (s.updLaunch v.task.launch Launch.abort)
    | some (kind, l) =>
      let s1 := (dropSaved s v).giveSlot (c / 4) v.spid
      let s2 := { s1 with
        bindings := s1.bindings ++ [c]
        lastPart := match s.launchOf v.task.launch with | some q => NMap.put s1.lastPart (dieOf c) q.part | none => s1.lastPart }
      .next (restoreTo (s2.updLaunch v.task.launch (fun q => q.setTask v.task.task (.running c))) c v bs kind l)

/-- Running contexts that may be freed for a task of a launch, which could use them then: the one of largest PRIO above its
own, and of equals the one bound last (R309). -/
def State.victimFor (s : State) (l : Launch) (ok : Nat → Bool) : Option Nat :=
  (s.bindings.foldl (fun (b : Option (Nat × Nat)) c =>
    match (s.ctx c).task, s.launchOf (s.ctx c).launchId with
    | some _, some q =>
      if l.prio < q.prio ∧ (s.ctx c).stat != .staging ∧ ok c then
        (match b with | some d => if q.prio < d.1 then b else some (q.prio, c) | none => some (q.prio, c))
      else b
    | _, _ => b) none).map (fun e => e.2)
/-- The context that a die's scheduler asks to have freed, for its first eligible task that finds no free context it may use
and could use that one (R309). While a request stands or a halted context is being saved, it asks for no other: DESIGN
CHOICE, since R309 says that it may ask (log 55). -/
def State.victim (s : State) (die : Nat) : Option Nat :=
  if s.cores.any (fun e => e.2.preempt.isSome) || s.ctxs.any (fun e => e.2.stat == .halted) then none
  else firstSome ((s.launchOrder die).flatMap (fun l =>
    (s.saved.filter (fun v => v.task.launch == l.id && v.live && dieOf v.c == die && l.stage == 2)).map (fun v =>
      if (s.ctx v.c).task.isNone then none else s.victimFor l (fun c => c == v.c && s.fits c v.kept l.id)) ++
    ((List.range l.tasks.length).filter l.eligible).map (fun i =>
      let p := fld (l.tasks.getD i 0) 32 16
      if (s.placeFor l i).isSome then none
      else s.victimFor l (fun c => dieOf c == die && (decide (32768 ≤ p) || ctxOfPos (p % 8192) == c) &&
        s.fits c (taskCtx l i) l.id && s.slotFree (c / 4) l.spid))))

/-! ## Staging and start (R284 to R287, R303) -/

/-- The place of the task on a context is clear for it. -/
def State.vacated (s : State) (c : Nat) : Bool := s.clearFor c (s.ctx c)

/-- The cause for which a staging copy fails now (R287), or none. -/
def State.inputFault (s : State) (c : Nat) (e : BitVec 256) : Option Nat :=
  let x := s.ctx c
  let va := fld e 64 64
  let n := fld e 32 32
  let l := if n = 0 then [] else (pagesOf va n).map (fun p => s.reach (c / 4) x.spid p Need.counted)
  if l.any (fun r => r == .unmapped || r == .expand || (match r with | .at pa => s.asleep pa | _ => false)) then none
  else if l.any (· == .noMap) then some 0x08
  else if l.any (· == .denied) then some 0x09
  else if (List.range (n / 64)).any (fun i => marksHit s.marks (s.paOf (c / 4) x.spid (va + 64 * i)) 64) then some 0x10
  else none
/-- The cause for which the next copy of a staging context fails now, or none. -/
def State.stagingFault (s : State) (l : Launch) (c : Nat) : Option Nat :=
  let x := s.ctx c
  match x.task with
  | none => none
  | some t =>
    if t.launch != l.id || x.stat != .staging || !s.vacated c then none
    else match (l.inputsOf t.task)[x.staged]? with
      | some e => if l.produced (fld e 128 32) then s.inputFault c e else none
      | none => none

/-- The walks of the next copy of a staging context, which fails (R335). -/
def walkInput (s : State) (l : Launch) (e : Nat × Ctx) : State :=
  match (l.inputsOf e.2.taskIx)[e.2.staged]? with
  | some i => s.fillPages (e.1 / 4) e.2.spid (fld i 64 64) (max 1 (fld i 32 32))
  | none => s
/-- The kernel aborts a launch for a staging copy that failed; of the copies that fail, the one of the lowest task index is
reported (R287, R297). -/
def stagingFails (s : State) (l : Launch) : State :=
  let s1 := s.ctxs.foldl (fun u e => match s.stagingFault l e.1 with
    | some cause => (walkInput u l e).updLaunch l.id (fun q => q.taint (e.2.taskIx, 0, cause, (ctxPos e.1).toNat))
    | none => u) s
  s1.updLaunch l.id Launch.abort

/-- A staging copy of bytes that are all at hand (R286, R363). -/
def stageBytes (s : State) (c : Nat) (e : BitVec 256) : State :=
  let x := s.ctx c
  let va := fld e 64 64
  let n := fld e 32 32
  let src := (List.range (n / 64)).map (fun i => s.paOf (c / 4) x.spid (va + 64 * i))
  let bs := src.flatMap (fun pa => Mem.read s.mem pa 64)
  let s1 := src.foldl (fun s pa => s.admitSector (s.tagOf pa)) s
  let s2 := s1.fillPages (c / 4) x.spid va (max n 1)
  (s2.updCore (c / 4) (fun k => k.putTile (x.tileAt (fld e 0 6) 0) bs)).setCtx c
    { x with staged := x.staged + 1, ttag := NMap.put x.ttag (fld e 0 6) (Fmt.ofCodeRaw (fld e 8 5)) }

/-- One input that does not fail is staged, or waits. -/
def stageInput (s : State) (c : Nat) (e : BitVec 256) : State :=
  let x := s.ctx c
  let va := fld e 64 64
  let n := fld e 32 32
  let l := if n = 0 then [] else (pagesOf va n).map (fun p => (p, s.reach (c / 4) x.spid p Need.counted))
  match l.find? (fun q => q.2 == .unmapped) with
  | some q => s.wantPage (c / 4) x.spid q.1
  | none =>
    match s.firstAsleep (l.filterMap (fun q => match q.2 with | .at pa => some pa | _ => none)) with
    | some pa => s.holdFor pa (.stage c)
    | none =>
    if l.any (fun q => q.2 == .expand) then s
    else if n != 0 && s.boundHit (c / 4) x.spid va n then s
    else stageBytes s c e

/-- STAGING_COPY: the next input of a bound task is copied to its tile register, or the launch is aborted for it (R286, R287,
R303). Before the first copy, the core's parts pass to the task's launch (R284). -/
def execStagingCopy (c : Nat) (s : State) : Host.Outcome State Fault Refusal :=
  let x := s.ctx c
  match x.task with
  | none => .next s
  | some t => match s.launchOf t.launch with
    | none => .next s
    | some l =>
      if x.stat != .staging || !s.vacated c || l.stage != 2 then .next s
      else match (l.inputsOf t.task)[x.staged]? with
        | none => .next s
        | some e =>
          let s1 := s.occupy c x t.launch
          .next (if !l.produced (fld e 128 32) then s
            else if (s.stagingFault l c).isSome then stagingFails s l else stageInput s1 c e)

/-- The state of a context at its task's start (R13, R282, R284, R288). -/
def startCtx (l : Launch) (i : Nat) (x : Ctx) : Ctx :=
  let t := l.tasks.getD i 0
  { x with
    stat := .ready
    pc := BitVec.ofNat 64 (fld t 320 64)
    budget := BitVec.ofNat 32 (fld t 96 32)
    x := (List.range (fld t 88 8)).foldl (fun m j => NMap.put m (j + 1) (NMap.get 0 l.args (16 * i + j))) [] }

/-- TASK_START: a task whose inputs are all staged starts (R284, R303); an interrupt asked for before takes effect. -/
def execTaskStart (c : Nat) (s : State) : Host.Outcome State Fault Refusal :=
  let x := s.ctx c
  match x.task with
  | none => .next s
  | some t => match s.launchOf t.launch with
    | none => .next s
    | some l =>
      if x.stat != .staging || !s.vacated c || l.stage != 2 || x.staged != (l.inputsOf t.task).length then .next s
      else
        let s1 := ((s.occupy c x t.launch).setCtx c (startCtx l t.task x)).updCore (c / 4) (fun k => { k with
          bayTag := (List.range 16).foldl (fun m b => if x.bays.getLsbD b then NMap.put m b .raw else m) k.bayTag })
        .next (s1.updLaunch l.id (fun q => q.setTask t.task (.running c)))

/-! ## Retirement (R285) -/

/-- The command does not stand in the way of its task's retirement. -/
def Cmd.ofSpace (k : Cmd) : Bool := k.port == 0x338 || k.port == 0x350
/-- What is left of a saved task that was lost with its image. -/
def State.lostOf (s : State) (t : TaskRef) : Option Saved := s.saved.find? (fun v => v.lost && v.task == t)
/-- An ended task has retired (R285). -/
def State.mayRetire (s : State) (launch : Word) (i c : Nat) : Bool :=
  let t : TaskRef := ⟨launch, i⟩
  let x := s.ctx c
  match s.lostOf t with
  | some v => v.cmds.all (fun k => k.fin.isSome || k.ofSpace)
  | none =>
  (s.core (c / 4)).cmds.all (fun k => k.task != t || k.ofSpace) &&
  (x.loadQ ++ x.storeQ).all (fun e => e.isMark || (match s.findCmd (c / 4) e.id with | some k => k.ofSpace | none => true))

/-- TASK_RETIREMENT: an ended task retires once its queue entries and commands have ended (R285). -/
def execTaskRetirement (launch : Word) (task : Nat) (s : State) : Host.Outcome State Fault Refusal :=
  match s.launchOf launch with
  | none => .next s
  | some l => match l.stat task with
    | .ended c =>
      if !s.mayRetire launch task c then .next s
      else
        let cls := (NMap.get 0 l.classes (c / 4)).toNat
        let s1 := if (s.lostOf ⟨launch, task⟩).isSome then s else s.updCtx c (fun x => { x with loadQ := [], storeQ := [] })
        .next (s1.updLaunch launch (fun q => { q.setTask task .retired with lastRet := NMap.put q.lastRet cls s.wall }))
    | _ => .next s

/-! ## Quiesce (R348, R349) -/

/-- The parts of a core that a command names are still its launch's. -/
def Core.stillOf (k : Core) (launch : Word) (m : Cmd) : Bool :=
  let own (n : Nat) : Bool := NMap.get 0 k.heldBy n == launch
  own (m.cw / 64) && m.ranges.all (fun r => r.2 == 0 || (own (r.1 / 64) && own ((r.1 + r.2 - 1) / 64))) &&
  (match m.bay with | some b => own (65536 + b) | none => true) && (match m.plane with | some p => own (131072 + p) | none => true)
/-- A command discarded by a quiesce fails with ABANDONED where its completion word's window is still its launch's: what a
failed command leaves, and its word (R145, R255, R348); an exchange with a lower code that it has met (R268). FIRST is 0, even where
sectors had failed before: DESIGN CHOICE (log 62). -/
def abandon (launch : Word) (s : State) (m : Cmd) : State :=
  let core := m.c / 4
  if NMap.get 0 (s.core core).heldBy (m.cw / 64) != launch || m.fin.isSome then s
  else
    let s1 := if (s.core core).stillOf launch m then failEffect s core m else s
    let code := if m.port = 0x350 then s.failCode launch 0x350 (mapSeq m.info) 6 else 6
    s1.updCore core (fun k => k.putTile m.cw (leBytes 8 (cwWord code 0).toNat))

/-- Everything that a space has pending at a Wharf is discarded (R209, R348). -/
def Wharf.purge (w : Wharf) (spid : Nat) : Wharf :=
  let own (o : WOp) : Bool := o.spid == spid
  { w with
    inq := w.inq.filter (fun o => !own o)
    armed := w.armed.filter (fun a => a.spid != spid)
    waiters := w.waiters.filter (fun v => !own v.op)
    heldArr := w.heldArr.filter (fun h => !own h.2)
    reorder := w.reorder.filter (fun h => !own h.2)
    stores := w.stores.filter (fun a => a.spid != spid)
    reports := w.reports.filter (fun r => r.2.2 != spid)
    landing := w.landing.filter (fun r => r.2.2 != spid)
    sent := w.sent.filter (fun a => a.spid != spid)
    log := w.log.filter (fun o => !own o) }

/-- The queues without the entries of commands that are discarded, wherever the context has gone to since (R348). -/
def Ctx.forget (x : Ctx) (ids : List Nat) : Ctx := ids.foldl (fun x id => (x.dequeue .cmd id).dequeue .nm id) x
/-- Contexts of a space lose their tasks, with everything in flight and queued (R72, R310, R348). -/
def purgeCtxs (s : State) (spid : Nat) : State :=
  let l := (s.ctxs.filter (fun e => e.2.spid == spid && e.2.task.isSome)).map (fun e => e.1)
  let s1 := l.foldl (fun s c => if (s.ctx c).stat = .staging then (match (s.ctx c).task with
    | some t => (s.setCtx c { Ctx.init with age := (s.ctx c).age }).updLaunch t.launch (fun q => q.setTask t.task .retired)
    | none => s) else endTask s c) s
  { s1 with ctxs := s1.ctxs.map (fun e =>
    if e.2.spid = spid ∧ e.2.task.isNone then (e.1, { e.2 with loadQ := [], storeQ := [] }) else e) }

/-- The launch that a space belongs to, or 0. -/
def State.launchFor (s : State) (spid : Nat) : Word :=
  match s.launches.find? (fun l => l.spid == spid) with | some l => l.id | none => 0

/-- The unit of engine traffic answers an access of another device. -/
def Load.answers (x : Load) : Bool :=
  match x with
  | .pkt p => (match p.note with | .recorded _ _ _ _ _ | .stored _ _ _ _ _ => true | _ => false)
  | .peer x => x.kind == .wrote || x.kind == .answer
/-- Messages, packets, accumulators, emits and engine traffic of a launch are discarded, and its collectives and exchanges
forgotten (R225, R255, R268, R348). What this device has to tell the others, and its answers to them, stay (log 57). -/
def State.dropTraffic (s : State) (launch : Word) : State :=
  (s.packets.filter (fun p => p.launch == launch)).foldl refuseAway (State.slotFreed { s with
    flits := s.flits.filter (fun f => f.msg.launch != launch)
    packets := s.packets.filter (fun p => p.launch != launch)
    outbound := s.outbound.filter (fun o => o.load.launch != launch || o.port.isNone || o.load.answers)
    seqs := s.seqs.filter (fun r => r.launch != launch)
    keepers := s.keepers.map (fun (e : Nat × Keeper) => (e.1, { e.2 with
      accs := e.2.accs.filter (fun (a : Accum) => a.launch != launch)
      emits := e.2.emits.filter (fun (m : Emit) => (s.findCmd m.core m.cmd).any (fun k => k.task.launch != launch))
      buf := e.2.buf.filter (fun (p : Packet) => p.launch != launch) })) })

/-- The access that a sleeping stack holds is of a space and its launch (R348, R357). -/
def Held.isOf (h : Held) (spid : Nat) (launch : Word) : Bool :=
  match h with
  | .compress sp _ | .migrate sp _ _ | .mapped sp _ _ | .unmappable sp _ | .report _ _ _ sp => sp == spid
  | .message m => m.launch == launch
  | .block p | .note p => p.launch == launch
  | .sector _ _ _ | .berth _ _ | .record _ _ _ | .near _ _ | .port | .wharf _ _ | .fired _ _ | .landed _ _ | .stage _
  | .fetch _ _ | .save _ | .restore _ | .table _ | .bytes _ _ => false

/-- Variables lost to an error, of the windows given, read zero (R354). -/
def Wharf.clearLost (w : Wharf) (own : Nat → Bool) : Wharf :=
  { w with vars := w.vars.filter (fun e => !(w.lost.contains e.1 && own e.1)), lost := w.lost.filter (fun o => !own o) }

/-- Tasks of a space end where they stand, with what they have in flight, and none of them starts any more (R310, R348, R349). -/
def stopSpace (s : State) (spid : Nat) : State :=
  let gone := s.ctxs.flatMap (fun e => if e.2.spid = spid then e.2.snap.map (fun f => (e.1, f.fid)) else []) ++
    (s.saved.filter (fun v => v.spid == spid)).flatMap (fun v => v.kept.snap.map (fun f => (v.c, f.fid)))
  let s1 := purgeCtxs s spid
  ({ s1 with wharfs := s1.wharfs.map (fun (e : Nat × Wharf) => (e.1, { e.2 with
      replies := e.2.replies.filter (fun r => !gone.contains (r.1, r.2.1)) })) }).updLaunch (s.launchFor spid) (fun l => { l with
    tstat := (List.range l.tasks.length).map (fun i => (i, match l.stat i with
      | .preempted _ => TaskStat.retired
      | .waiting => .skipped
      | t => t)) })
/-- Exchanges that a launch has commands of on this device. -/
def State.openAq (s : State) (launch : Word) : List (BitVec 32) :=
  ((s.allCmds.filter (fun k => k.task.launch == launch && k.port == 0x350 && k.fin.isNone)).map (fun k => mapSeq k.info)).eraseDups
/-- A quiesce abandons an exchange, on every rank (R268); one that every rank here is through in ends by itself, unless it waits for a
device that no way leads to. -/
def leaveAq (s : State) (l : Launch) (seq : BitVec 32) : State :=
  if s.throughHere l seq && !s.seqs.any (fun r => r.isFor l.id 0x350 seq && r.joined.any (fun j => j.through.isNone && s.unreached l j.dev))
  then s
  else failAq s l seq 6
/-- Exchanges of a space are abandoned. -/
def leaveAqs (s : State) (spid : Nat) : State :=
  match s.launchOf (s.launchFor spid) with
  | some l => (s.openAq l.id).foldl (fun s q => leaveAq s l q) s
  | none => s
/-- A space has accesses on their way in other devices, or exchanges whose code is not agreed on yet: a quiesce waits for them (R268,
R348). -/
def State.spaceAway (s : State) (spid : Nat) : Bool :=
  let launch := s.launchFor spid
  s.allCmds.any (fun k => k.spid == spid && k.fin.isNone && (((k.port == 0x341 || k.port == 0x32D) && k.away != []) ||
    (k.port == 0x351 && k.prog == 1))) ||
  s.openAq launch != [] || s.wharfs.any (fun e => e.2.sent.any (fun a => a.spid == spid)) ||
  s.packets.any (fun p => p.launch == launch && Note.isWait p.note)

/-- ctl.quiesce of a space performs (R348): what it has pending is discarded, its places in the tables go, and its
translations are shot down. None of its tasks starts any more, so that it writes nothing again (R349). -/
def quiesceSpace (s : State) (spid : Nat) : State :=
  let launch := s.launchFor spid
  let s0 := stopSpace s spid
  let s1 := (s0.allCmds.filter (fun m => m.spid == spid)).foldl (abandon launch)
    ((s0.saved.filter (fun v => v.spid == spid)).foldl dropSaved s0)
  let lost (die : Nat) (off : Nat) : Bool := match s.launchOf launch with
    | some l => let w := recWin l.info die; decide (w.1 ≤ off) && decide (off < w.1 + w.2)
    | none => false
  let ids := (s0.allCmds.filter (fun m => m.spid == spid)).map (fun m => m.id)
  let s2 : State := { s1 with
    ctxs := s1.ctxs.map (fun e => (e.1, e.2.forget ids))
    cores := s1.cores.map (fun (e : Nat × Core) => (e.1, { e.2 with
      cmds := e.2.cmds.filter (fun (m : Cmd) => m.spid != spid)
      grants := e.2.grants.filter (fun (g : Grant) => g.launch != launch) }))
    wharfs := s1.wharfs.map (fun (e : Nat × Wharf) => (e.1, (e.2.purge spid).clearLost (lost e.1)))
    pageReqs := s1.pageReqs.filter (fun p => p.1 != spid)
    unmappable := s1.unmappable.filter (fun (p : Nat × Nat) => p.1 != spid)
    portQ := s1.portQ.filter (fun q => q.space != spid)
    srHeld := s1.srHeld.map (fun e => (e.1, e.2.filter (fun h => !h.isOf spid launch)))
    quiescing := s1.quiescing.filter (· != spid) }
  let s3 := s2.dropTraffic launch
  let s4 := s3.updLaunch launch (fun l => { l with
    info := BitVec.ofNat 1024 (l.info.toNat - fld l.info 256 128 * 2 ^ 256)
    tstat := l.tstat.map (fun e => (e.1, match e.2 with | .ended _ => TaskStat.retired | t => t)) })
  (s4.dropSlots spid).shootDown spid none
/-- A quiesce of a space goes on: while accesses of it are away in other devices its tasks stop and its exchanges are abandoned, and
then it performs (R348). The second component tells whether it has. -/
def quiesceTurn (s : State) (spid : Nat) : State × Bool :=
  if !s.spaceAway spid then (quiesceSpace s spid, true)
  else
    let t := leaveAqs (stopSpace s spid) spid
    if t.spaceAway spid then (t, false) else (quiesceSpace t spid, true)

/-- QUIESCE_PERFORMED: the quiesce of a space that was asked for performs, or waits (R331, R348). -/
def execQuiescePerformed (spid : Nat) (s : State) : Host.Outcome State Fault Refusal :=
  .next (if s.quiescing.contains spid then (quiesceTurn s spid).1 else s)

/-! ## Completion (R299) -/

/-- What a launch leaves behind is cleared: its harts, the frames its lock-keepers spilled into, and what its tasks left on
cores (R241, R243, R284). -/
def clearLaunch (s : State) (l : Launch) : State :=
  let s1 := { s with
    launches := s.launches.filter (fun q => q.id != l.id)
    keepers := s.keepers.map (fun (e : Nat × Keeper) => (e.1, { e.2 with
      harts := e.2.harts.map (fun (h : Nat × Hart) => if h.2.launch = some l.id then (h.1, Hart.init) else h)
      spill := e.2.spill.filter (fun p => p.1 != l.id) }))
    cores := s.cores.map (fun (e : Nat × Core) => (e.1, { e.2 with
      left := e.2.left.filter (fun v => v.launch != l.id)
      heldBy := e.2.heldBy.filter (fun h => h.2 != l.id) })) }
  (s.keepers.flatMap (fun e => e.2.spill)).foldl (fun s p => if p.1 = l.id then s.giveFrame l.part p.2 else s) s1

/-- A ring, given by the offsets of its three counts, has room for a record (R373). -/
def State.ringRoom (s : State) (sizeR headR tailR : Nat) : Bool :=
  decide ((s.mreg tailR - s.mreg headR).toNat < 2 ^ min (s.mreg sizeR).toNat 16)
/-- A completion record written now would not wait (R373). -/
def State.completionRoom (s : State) : Bool := !s.heldOut.any (fun e => !e.1) && s.ringRoom 0x128 0x130 0x138
/-- Nothing is held back, and both rings can take a record (R373). -/
def State.ringsFree (s : State) : Bool := s.heldOut == [] && s.ringRoom 0x128 0x130 0x138 && s.ringRoom 0x188 0x190 0x198

/-- Steps 1 and 2 of R299: the launch's space has been quiesced, and its statement is emitted. One that a device out of service has
aborted has no fault of a task to tell (R356). -/
def closeLaunch (s : State) (l : Launch) : State :=
  let s1 := s.emit 1 l.id 0
  s1.updLaunch l.id (fun q => { q with stmt := s1.stmtSeq, fault := if s.outOfService then none else q.fault })
/-- STATUS of a launch's last record (R298). -/
def Launch.status (l : Launch) : Nat := if l.stage = 3 then 3 else if l.stage = 5 then 4 else 0
/-- Step 3 of R299: the completion record is written, what the launch had goes, and the launches that wait for it may go. -/
def endLaunch (s : State) (l : Launch) : State :=
  let f := l.fault.getD (0xFFFFFFFF, 0, 0, 0)
  let s1 := s.completion (recordBytes l.htag l.id l.verdict l.status f.2.2.1 f.1 f.2.2.2 l.ncorr l.nphase l.stmt 0)
  settleQueue (closeGen ((clearLaunch (freeSpace s1 l.spid) l).noteDone l.part l.htag l.verdict l.status))
/-- The last record of a launch that has been quiesced is written once its statement stands in its ring, the completion ring has room,
and no stack sleeps that its tables are to be cleared in (R298, R299, R357, R373). -/
def settleEnd (s : State) (l : Launch) : State :=
  if s.heldBack l.stmt || !s.completionRoom || (s.spaceAsleep l.spid).isSome then s else endLaunch s l
/-- `settleEnd` of the launch of an identifier. -/
def endIfReady (s : State) (launch : Word) : State := match s.launchOf launch with | some q => settleEnd s q | none => s

/-- LAUNCH_COMPLETION: the space of an ended or aborted launch is quiesced and its statement emitted; its completion record
follows once it can be written (R298, R299). A cancelled launch has been quiesced, and only its record is to come (R293). -/
def execLaunchCompletion (launch : Word) (s : State) : Host.Outcome State Fault Refusal :=
  match s.launchOf launch with
  | none => .next s
  | some l =>
    if l.stage < 3 then .next s
    else if l.stmt ≠ 0 ∨ l.stage = 5 then .next (settleEnd s l)
    else
      let q := quiesceTurn s l.spid
      .next (if q.2 then endIfReady (closeLaunch q.1 l) launch else q.1)

/-- RELEASE: a held launch runs as if its dependences were clean (R293, R374). -/
def execRelease (htag : Word) (s : State) : Host.Outcome State Fault Refusal :=
  .next (match s.launches.find? (fun l => l.htag == htag && l.stage == 1) with
    | some l => if s.open' then settleOne (s.updLaunch l.id (fun q => { q with released := true, stage := 0 })) l.id else s
    | none => s)

/-- CANCEL: a held launch completes with STATUS CANCELLED and runs nothing; its record follows as any last record does (R293, R298,
R299, R374). -/
def execCancel (htag : Word) (s : State) : Host.Outcome State Fault Refusal :=
  .next (match s.launches.find? (fun l => l.htag == htag && l.stage == 1) with
    | some l => if s.open' then endIfReady ((quiesceSpace s l.spid).updLaunch l.id (fun q => { q with stage := 5 })) l.id else s
    | none => s)

/-- RUN_LIMIT: a run of 1,024 groups ends where another context of the core was ready in the wall cycle of its last group;
the width passes to the first such context, for the next wall cycle (R304). -/
def execRunLimit (core : Nat) (s : State) : Host.Outcome State Fault Refusal :=
  let k := s.core core
  .next (match [1, 2, 3].find? (fun j => k.ready.contains ((k.width + j) % 4)) with
    | some j => if 1024 ≤ k.run then s.setCore core { k with width := (k.width + j) % 4, run := 0, ready := [] } else s
    | none => s)

end Sys2Proof.Machine
end

