-- ==== Sys2Proof/Machine/Manage.lean ====
section
/-! DEFINITION. The management registers (R372, R376), the host's command ring (R374), the debugger (R375), slot tables
(R343, R344), and writes that arrive through the host link and the storage port (R188, R338, R362). -/

namespace Sys2Proof.Machine

/-! ## Registers that act (R337, R372, R376) -/

/-- Stores and records of a space that are away in other devices, as `State.storeOut` names them. -/
def State.peerAway (s : State) (spid : Nat) : List (Nat × Nat × Nat) :=
  (s.allCmds.filter (fun k => k.spid == spid && (k.port == 0x341 || k.port == 0x32D))).flatMap (fun k =>
    k.away.map (fun i => (k.c / 4, k.id, i))) ++
  s.wharfs.flatMap (fun e => (e.2.sent.filter (fun a => a.spid == spid)).map (fun a => (384 + e.1, a.id, 0))) ++
  s.packets.flatMap (fun p => match p.note with
    | .waits left _ => if p.launch == s.launchFor spid then left.map (fun i => (1000, p.tag, i)) else []
    | _ => [])
/-- A shoot-down is pending: an access that may have used a dropped entry has yet to perform in another device (R337). -/
def State.shootPending (s : State) : Bool := s.shooting.any (fun e => s.storeOut e.1 e.2.1 e.2.2)
/-- SHOOT: a shoot-down of a page or a whole space. It has performed once every store of the space that is away in another device has,
and a write while one is pending is discarded (R337, R372). -/
def execShoot (val : Word) (s : State) : Host.Outcome State Fault Refusal :=
  let spid := fld val 0 12
  .next (if s.shootPending then s
    else { (s.shootDown spid (if bit val 63 then none else some (fld val 16 36 * 65536))) with shooting := s.peerAway spid })

/-- QUIESCE: a quiesce of a space is asked for; discarded while one is pending, and for SPID 0 (R331, R372). -/
def execQuiesce (val : Word) (s : State) : Host.Outcome State Fault Refusal :=
  .next (if fld val 0 12 = 0 ∨ s.quiescing ≠ [] then s else { s with quiescing := [fld val 0 12] })

/-- POOLPUSH: a frame of HBM enters the selected pool (R376). -/
def execPoolpush (val : Word) (s : State) : Host.Outcome State Fault Refusal :=
  .next (if val.toNat % 65536 = 0 ∧ inHbm val.toNat then s.giveFrame (fld (s.mreg 0x370) 0 4) val.toNat else s)

/-- POOLPOP: a read by the kernel takes a frame; what the read returns stands at the register's offset (R372, R376). -/
def execPoolpop (kernel : Bool) (s : State) : Host.Outcome State Fault Refusal :=
  .next (match (if kernel then s.takeFrame (fld (s.mreg 0x370) 0 4) else none) with
    | some (f, t) => t.setMreg 0x380 (BitVec.ofNat 64 f)
    | none => s.setMreg 0x380 0xFFFFFFFFFFFFFFFF)

/-- SLOTVAL: the selected slot byte of a pseudo-channel, or of all of them (R343, R376). -/
def execSlotval (val : Word) (s : State) : Host.Outcome State Fault Refusal :=
  let ch := fld (s.mreg 0x340) 0 10
  let slot := fld (s.mreg 0x340) 16 6
  let b : BitVec 8 := BitVec.ofNat 8 (fld val 0 4 + fld val 7 1 * 128)
  .next (if ch = 1023 then { s with slots := (List.range 512).foldl (fun m c => NMap.put m (64 * c + slot) b) s.slots }
    else if ch < 512 then { s with slots := NMap.put s.slots (64 * ch + slot) b } else s)

/-- ATVAL: the selected access-table slot at one target or at all of them (R345, R376). -/
def execAtval (val : Word) (s : State) : Host.Outcome State Fault Refusal :=
  let m := fld (s.mreg 0x350) 0 9
  let t := fld (s.mreg 0x350) 16 9
  let v : BitVec 16 := BitVec.ofNat 16 (fld val 0 12 + fld val 13 3 * 2 ^ 13)
  .next (if m < 426 ∧ (t < 422 ∨ t = 511) then s.setSlot t m (fld (s.mreg 0x350) 32 3) v else s)

/-! ## The debugger (R375) -/

/-- The context that DBGSEL names. -/
def State.dbgCtx (s : State) : Nat := ctxOfPos (fld (s.mreg 0x408) 0 13)
/-- DBGSEL names a context. -/
def State.dbgOk (s : State) : Bool := posOK (fld (s.mreg 0x408) 0 13)
/-- RESULT of the last command. -/
def State.dbgResult (s : State) (r : Nat) : State := s.setMreg 0x428 (BitVec.ofNat 64 (16 * r))
/-- The image that SAVE wrote of the context now held. -/
def State.dbgSaved (s : State) (c : Nat) : Option Saved :=
  s.saved.find? (fun v => v.c == c && v.forDebug && (s.ctx c).task == some v.task)
/-- A hold of the context has ended: the image that SAVE wrote is of no further use. -/
def State.dbgDone (s : State) (c : Nat) : State := { s with saved := s.saved.filter (fun v => !(v.c == c && v.forDebug)) }
/-- A debugger command with ATTACH set on a held context; RESULT 4 or 1 otherwise. Discarded while BUSY. -/
def debug (s : State) (f : Nat → State) : Host.Outcome State Fault Refusal :=
  .next (if s.dbgSaving.isSome then s
    else if !s.attached then s.dbgResult 4
    else if !(s.dbgOk && s.heldFor s.dbgCtx) then s.dbgResult 1
    else f s.dbgCtx)

/-- A held context's task ends, as R316's End. -/
def endHeld (s : State) (c : Nat) : State :=
  (endTainted s c (if (s.ctx c).stat = .held then 0 else (s.ctx c).cause)).dbgDone c

/-- DBG_INTERRUPT: an interrupt of the named context (R317, R375). -/
def execDbgInterrupt (s : State) : Host.Outcome State Fault Refusal :=
  if s.dbgSaving.isSome then .next s
  else if !s.attached then .next (s.dbgResult 4)
  else if !s.dbgOk || (s.ctx s.dbgCtx).task.isNone then .next (s.dbgResult 1)
  else .next ((after s (execInterrupt s.dbgCtx s)).dbgResult 0)

/-- The image of a held context is written, or does not fit in DBGLEN (R375). -/
def writeDbg (s : State) (c : Nat) : State :=
  let bs := imageOf s c false
  if (s.mreg 0x420).toNat < bs.length then s.dbgResult 2
  else
    let x := s.ctx c
    let t := (s.writeHost (s.mreg 0x418).toNat bs).dbgDone c
    { (t.dbgResult 0) with
      saved := t.saved ++ [⟨x.task.getD ⟨0, 0⟩, c, x.spid, (s.mreg 0x418).toNat, true, x, [], x.arrived, bs, [], [], false, [], []⟩] }
/-- A SAVE of a held context writes its image, once what is in flight has completed; until then the debugger is busy (R322,
R375). -/
def saveHeld (s : State) (c : Nat) : State :=
  if s.saveReady c then writeDbg { s with dbgSaving := none } c else { s with dbgSaving := some c }
/-- DBG_SAVE: a full image of the held context at DBGADDR (R322, R375). -/
def execDbgSave (s : State) : Host.Outcome State Fault Refusal := debug s (saveHeld s)
/-- A SAVE in progress goes on; of a context that is no longer held it ends with RESULT 1 (R375, log 61). -/
def dbgTurn (s : State) : State :=
  match s.dbgSaving with
  | none => s
  | some c => if s.heldFor c then saveHeld s c else { (s.dbgResult 1) with dbgSaving := none }

/-- DBG_RESUME: the held context returns from its trap or interrupt (R316, R375). -/
def execDbgResume (s : State) : Host.Outcome State Fault Refusal :=
  debug s (fun c => ((returnTo s c).dbgDone c).dbgResult 0)

/-- DBG_END: the held context's task ends (R316, R375). -/
def execDbgEnd (s : State) : Host.Outcome State Fault Refusal := debug s (fun c => (endHeld s c).dbgResult 0)

/-- One list of claim sections is the other with some removed. -/
def fewer : List Sec → List Sec → Bool
  | [], _ => true
  | _ :: _, [] => false
  | a :: t, b :: u => if a = b then fewer t u else fewer (a :: t) u

/-- A number without some of its bits: where they begin and how many they are. -/
def cutBits (w : Nat) (l : List (Nat × Nat)) : Nat := l.foldl (fun w f => w - w / 2 ^ f.1 % 2 ^ f.2 * 2 ^ f.1) w
/-- An image is another one edited only in scalar registers, PRED, RESUME and RSLOT, and by removed claims (R330). Reserved fields of
the header, the control block and the inlet block are ignored (R5, R324 to R326), and so are those of section headers. -/
def editedOk (old new : List Byte) (c : Nat) : Bool :=
  match readImage old c, readImage new c with
  | some (k1, l1), some (k2, l2) =>
    let hdr (b : List Byte) : Nat :=
      cutBits (leAt b 0 64) [(42, 3), (45, 3), (68, 2), (77, 11), (96, 32), (320, 64), (384, 64), (448, 64)]
    let ctl (b : List Byte) : Nat := cutBits (leAt b 64 128) [(344, 8), (784, 240)]
    let inlet (b : List Byte) : List Nat := (List.range 64).map (fun i => cutBits (leAt b (192 + 32 * i) 32) [(32, 83), (120, 11)])
    let rest (l : List Sec) : List Sec := l.filter (fun t => t.kind != 14 && t.kind != 1)
    let regs (l : List Sec) : List Nat := (l.filter (fun t => t.kind == 1)).map (fun t => t.aux)
    k1 == k2 && hdr old == hdr new && ctl old == ctl new && leAt new 107 1 % 2 == 0 &&
    inlet old == inlet new && rest l1 == rest l2 && regs l1 == regs l2 &&
    fewer (l2.filter (fun t => t.kind == 14)) (l1.filter (fun t => t.kind == 14))
  | _, _ => false

/-- The edits of an image, on the context that is held. -/
def Ctx.edited (x : Ctx) (bs : List Byte) (l : List Sec) : Ctx :=
  let y := (l.filter (fun t => t.kind == 1)).foldl Ctx.takeSec x
  { y with
    p := BitVec.ofNat 8 (leAt bs 107 1 / 2 * 2)
    pc := BitVec.ofNat 64 (leAt bs 40 8)
    slot := leAt bs 5 1 / 32
    snap := x.snap.filter (fun f => match f.item with
      | .claim src k _ => l.any (fun t => t.kind == 14 && leAt t.data 0 8 == src.toNat && leAt t.data 16 8 == k)
      | _ => true) }

/-- DBG_RESTORE: the image at DBGADDR, edited as R330 allows, goes back into the held context, which resumes (R375). -/
def execDbgRestore (s : State) : Host.Outcome State Fault Refusal :=
  debug s (fun c =>
    match s.dbgSaved c with
    | none => s.dbgResult 3
    | some v =>
      let a := (s.mreg 0x418).toNat
      let bs := s.readHost a (min (leAt (s.readHost a 64) 48 8) (2 ^ 26))
      if (readImage bs c).isSome ∧ (s.mreg 0x420).toNat < bs.length then s.dbgResult 2
      else if !editedOk v.orig bs c then s.dbgResult 3
      else match readImage bs c with
        | none => s.dbgResult 3
        | some (_, l) => ((returnTo (s.updCtx c (fun x => x.edited bs l)) c).dbgDone c).dbgResult 0)

/-- DBGCTL: clearing ATTACH ends every held context (R375). -/
def execDbgctl (val : Word) (s : State) : Host.Outcome State Fault Refusal :=
  let held := if bit val 0 then [] else (s.ctxs.map (fun e => e.1)).filter s.heldFor
  .next ((held.foldl endHeld s).setMreg 0x400 (val &&& 1))

/-- A write to DBGCMD (R375). -/
def debugCommand (s : State) (n : Nat) : State :=
  if s.dbgSaving.isSome then s
  else match n with
  | 1 => after s (execDbgInterrupt s)
  | 2 => after s (execDbgSave s)
  | 3 => after s (execDbgResume s)
  | 4 => after s (execDbgRestore s)
  | 5 => after s (execDbgEnd s)
  | _ => s

/-! ## Register writes and reads (R372) -/

/-- Bits that a register without behaviour of its own keeps of a write. -/
def regMask (off : Nat) : Option (Bool × Word) :=
  match off with
  | 0x0000 | 0x0008 | 0x0100 | 0x0108 | 0x0110 | 0x0120 | 0x0128 | 0x0130 | 0x0140 | 0x0148 | 0x0150
  | 0x0180 | 0x0188 | 0x0190 | 0x0418 | 0x0420 => some (true, 0xFFFFFFFFFFFFFFFF)
  | 0x0408 => some (true, 0x1FCF)
  | 0x0200 | 0x0208 | 0x0300 | 0x0360 | 0x0368 => some (false, 0xFFFFFFFFFFFFFFFF)
  | 0x0330 => some (false, 0xFFFF)
  | 0x0338 => some (false, 0xFFFFFFFF)
  | 0x0340 => some (false, 0x3F03FF)
  | 0x0350 => some (false, 0x701FF01FF)
  | 0x0370 => some (false, 0xF)
  | _ => none

/-- A write to a management register: its Access code permits it, or it is discarded (R372). -/
def writeReg (s : State) (kernel : Bool) (off val : Nat) : State :=
  let w : Word := BitVec.ofNat 64 val
  match regMask off with
  | some (host, mask) =>
    if !(host || kernel) then s
    else
      let t := if off = 0x360 then s.placeTable w else s.setMreg off (w &&& mask)
      if off = 0x130 ∨ off = 0x190 then t.flushOut else t
  | none =>
    if off = 0x1A0 then after s (execSack w s)
    else if off = 0x400 then after s (execDbgctl w s)
    else if off = 0x410 then debugCommand s val
    else if off = 0x518 then (s.setMreg off (if 1000 ≤ val ∧ val ≤ 2800 then w else 2800)).throttle
    else if !kernel then s
    else if off = 0x308 then after s (execShoot w s)
    else if off = 0x318 then after s (execQuiesce w s)
    else if off = 0x348 then after s (execSlotval w s)
    else if off = 0x358 then after s (execAtval w s)
    else if off = 0x378 then after s (execPoolpush w s)
    else s

/-- MANAGEMENT_REGISTER_WRITE (R372). -/
def execManagementRegisterWrite (kernel : Bool) (off val : Word) (s : State) : Host.Outcome State Fault Refusal :=
  .next (writeReg s kernel off.toNat val.toNat)

/-- What a management register reads as (R372); POOLPOP's read is an event of its own. -/
def readReg (s : State) (off : Nat) : Word :=
  match off with
  | 0x01A0 => BitVec.ofNat 64 s.committed
  | 0x0308 | 0x0318 | 0x0378 | 0x0410 => 0
  | 0x0310 => b2w s.shootPending
  | 0x0320 => b2w (s.quiescing != [])
  | 0x0348 =>
    let ch := fld (s.mreg 0x340) 0 10
    (NMap.get 0 s.slots (64 * (if ch = 1023 then 0 else ch) + fld (s.mreg 0x340) 16 6)).setWidth 64
  | 0x0358 =>
    let t := fld (s.mreg 0x350) 16 9
    (s.slotOf (if t = 511 then 0 else t) (fld (s.mreg 0x350) 0 9) (fld (s.mreg 0x350) 32 3)).setWidth 64
  | 0x0388 => BitVec.ofNat 64 (s.pool (fld (s.mreg 0x370) 0 4)).length
  | 0x0428 =>
    let c := s.dbgCtx
    let held := s.dbgOk && s.heldFor c
    BitVec.ofNat 64 ((s.mreg 0x428).toNat + (if held then 2 else 0) + (if s.dbgSaving.isSome then 1 else 0) +
      (if held ∧ (s.ctx c).stat = .trapped then (s.ctx c).cause * 65536 else 0))
  | _ => s.mreg off

/-! ## Host commands (R374) -/

/-- A command of the ring is performed, or ignored (R356, R374). -/
def hostCommand (s : State) (r : BitVec 512) : State :=
  let addr : Word := BitVec.ofNat 64 (fld r 192 64)
  let htag : Word := BitVec.ofNat 64 (fld r 0 64)
  if fld r 72 56 != 0 || (s.outOfService && fld r 64 8 != 3 && fld r 64 8 != 4) then s
  else match fld r 64 8 with
    | 1 => after s (execRelease htag s)
    | 2 => after s (execCancel htag s)
    | 3 => after s (execStatementRequest s)
    | 4 => after s (execAttestationReport (BitVec.ofNat 64 (fld r 128 64)) addr (BitVec.ofNat 256 (fld r 256 256)) s)
    | 5 => after s (execPresentStatement addr s)
    | 6 => after s (execImportStatement addr s)
    | _ => s
/-- The kernel takes the next command of the ring, in ring order, while the ring's counts allow it; while it waits for the commit
of the BOOT statement it takes none (R367, R373, R374, log 39). -/
def takeCommand (s : State) : State :=
  let n := s.mreg 0x150 - s.mreg 0x158
  let size := 2 ^ min (s.mreg 0x148).toNat 16
  if n = 0 ∨ size < n.toNat ∨ s.bootStep < 7 ∨ (s.bootStep = 8 ∧ !s.outOfService) then s
  else
    let r := BitVec.ofNat 512 (ofLE (s.readHost ((s.mreg 0x140).toNat + 64 * ((s.mreg 0x158).toNat % size)) 64))
    hostCommand (s.setMreg 0x158 (s.mreg 0x158 + 1)) r

/-! ## Slot tables (R343, R344) -/

/-- The partition that a slot byte serves, given the partitions that wait; none where the slot is idle (R344). -/
def grantSlot (pctl : Word) (slot : BitVec 8) (n : Nat) (waiting : BitVec 16) : Option Nat :=
  let part := fld slot 0 4
  let first (p : Nat) : Option Nat := ((List.range 16).map (fun j => (p + 1 + j) % 16)).find? (fun q =>
    bit pctl (2 * q + 1) && waiting.getLsbD q)
  if bit slot 7 then
    if waiting.getLsbD part then some part else if bit pctl (2 * part) then first part else none
  else first (n % 16)
/-- A channel's slot bytes for a turn of its table: those that stand as the turn begins (R376). -/
def State.turnOf (s : State) (channel n : Nat) : NMap (BitVec 8) :=
  if n = 0 then (List.range 64).foldl (fun m i => NMap.put m (64 * channel + i) (NMap.get 0 s.slots (64 * channel + i))) s.turnSlots
  else s.turnSlots
/-- SLOT_GRANT: a pseudo-channel gives its slot out and goes on to the next; its table pauses in self-refresh (R343, R344,
R357). A changed slot counts from the table's next turn (R376). The log keeps the partition served plus one, and 0 for an idle slot. -/
def execSlotGrant (channel : Nat) (waiting : BitVec 16) (s : State) : Host.Outcome State Fault Refusal :=
  if 512 ≤ channel ∨ s.selfRef.getLsbD (channel / 64) then .next s
  else
    let n := NMap.get 0 s.slotAt channel
    let turn := s.turnOf channel n
    let g := grantSlot (s.mreg 0x338) (NMap.get 0 turn (64 * channel + n)) n waiting
    .next { s with
      turnSlots := turn
      slotAt := NMap.put s.slotAt channel ((n + 1) % 64)
      grantLog := NMap.put s.grantLog channel (match g with | some p => p + 1 | none => 0) }

/-! ## Writes through the host link and the storage port (R188, R338, R362) -/

/-- HOST_LINK_WRITE: a write of the host to a management register (BAR0) or to its own memory, or a request of the storage
port to a space, in the order received: a write or a DMA read (R188, R371, R372, R379). The host's reads of its own memory are its
own affair. -/
def execHostLinkWrite (storage : Bool) (spid : Nat) (addr : Word) (data : LinkData) (s : State) : Host.Outcome State Fault Refusal :=
  let a := addr.toNat
  if storage then .next (portTurn { s with portQ := s.portQ ++
    [match data with | .write bs => .write spid a bs | .read n => .read spid a n] })
  else match data with
  | .read _ => .next s
  | .write bs =>
    .next (if a < 0x4000000 then (if bs.length = 8 ∧ a % 8 = 0 then writeReg s false a (ofLE bs) else s)
      else if inHost a && decide (a + bs.length ≤ 0x200000000000) then s.putMem a bs
      else s)

end Sys2Proof.Machine
end

