-- ==== Sys2Proof/Machine/Move.lean ====
section
/-! DEFINITION. The plain move and the empty move (R15, R25, R29 to R34). -/

namespace Sys2Proof.Machine

/-- A move reads its source and writes its destination (R15, R32). -/
def execMove (g : BitVec 4) (src dst : BitVec 10) (s : State) : Host.Outcome State Fault Refusal :=
  issue s g (s.srcCls src ++ s.dstCls src dst ++ s.moveCls src dst) (s.srcOwn src ++ s.dstOwn dst)
    (fun t => (t.afterRead src).writeDst dst (t.readSrc src))

/-- The move `x0 -> x0` (R25). -/
def execNop (s : State) : Host.Outcome State Fault Refusal :=
  .next s

end Sys2Proof.Machine
end

