-- ==== Sys2Proof/Machine/Power.lean ====
section
/-! DEFINITION. Errors and what they cost (R350 to R356), thermal self-refresh (R357), and the module (R364, R380). -/

namespace Sys2Proof.Machine

/-! ## Errors (R350 to R354) -/

/-- The launch whose space issued the access that met an error, 0 where none did (R351). Bits 10:0 of `unit` tell who met it: a
context, 1536 for scrubbing, 1153 + m for another master m. The bits above them hold the space of the access; where they are
zero it is that of the task that holds the context, else of one that has ended there with accesses left, else of one that is
saved. -/
def State.metBy (s : State) (unit : Nat) : Word :=
  if unit / 2048 ≠ 0 then s.launchFor (unit / 2048)
  else if 1536 ≤ unit then 0
  else match (s.ctx unit).task, s.launches.find? (fun l => l.endedAt unit), s.saved.find? (fun v => v.c == unit) with
    | some t, _, _ => t.launch
    | none, some l, _ => l.id
    | none, none, some v => v.task.launch
    | none, none, none => 0
/-- Master number of who met the error, 0xFFFF where none did. -/
def metMaster (unit : Nat) : Nat :=
  let m := unit % 2048
  if m < 1536 then m / 4 else if m = 1536 then 0xFFFF else m - 1153

/-- What a memory holds at a line after an uncorrectable error in it: unknown bytes (R352, log 3). -/
def spoil (m : Mem) (a : Nat) : Mem :=
  Mem.write m a ((List.range 64).map (fun i => Config.markedByte (a + i) (Mem.get m (a + i))))
/-- A plane's cells after an uncorrectable error in it. -/
def spoilPlane (p : Plane) : Plane :=
  { p with
    taint := true
    cells := lanesOf 4096 (fun n => BitVec.ofNat 32 (ofLE ((leBytes 4 (lane p.cells n).toNat).mapIdx (fun i b =>
      Config.markedByte (4 * n + i) b)))) }

/-- A context is lost: its task ends, or the image saved of it at an address is gone, and the launch is TAINTED with cause
0x10 (R353). Bit 63 of ADDR tells an error in a saved image. One that no task loses anything by is recorded (R351). -/
def loseContext (s : State) (c : Nat) (addr : Word) : State :=
  let x := s.ctx c
  if bit addr 63 then
    match s.saved.find? (fun v => v.c == c && v.live && v.addr == fld addr 0 63) with
    | some v => loseSaved s v
    | none => s.event 0x07 1 addr 0 0xFFFF
  else match x.task with
  | some t => (endTainted s c 0x10).event 0x07 2 0 t.launch (c / 4)
  | none => s.event 0x07 1 addr 0 0xFFFF

/-- The first beat of a context in flight on a plane mismatches, and its recomputation too (R167). What lands is the result of
R159 with the taint set: DESIGN CHOICE, since R167 says only that the values land (log 62). -/
def spoilBeat (x : Ctx) (plane : Nat) : Ctx :=
  match x.snap.find? (fun f => match f.item with | .beat _ w _ _ _ _ _ _ _ _ bad => wPlane w == plane && !bad | _ => false) with
  | none => x
  | some f => { x with snap := x.snap.map (fun g => if g.fid = f.fid then
      { g with item := match g.item with
        | .beat p w rm cm a0 a1 af row rf md _ => .beat p w rm cm a0 a1 af row rf md true
        | i => i } else g) }
/-- The first Weir beat of a context in flight mismatches, and its recomputation too (R239). -/
def spoilWbeat (x : Ctx) : Ctx :=
  match x.snap.find? (fun f => match f.item with | .wbeat _ _ bad _ => !bad | _ => false) with
  | none => x
  | some f => { x with snap := x.snap.map (fun g => if g.fid = f.fid then
      { g with item := match g.item with | .wbeat r i _ t => .wbeat r i true t | i => i } else g) }

/-- The launches are aborted for an error in a Wharf, its log or its overflow area, each with its event of a source; an error that costs
no launch is recorded too (R351, R354). -/
def loseLaunches (s : State) (source : Nat) (ids : List Word) (addr met : Word) (master : Nat) : State :=
  if ids = [] then s.event source 1 addr met master
  else ids.foldl (fun s id => (s.updLaunch id Launch.abort).event source 2 addr id master) s

/-- A variable that an error has hit reads zero, at once where no launch's window holds it (`live`), else after the quiesce of the abort
(R354, R299); until then it holds unknown bits (log 3). -/
def loseWord (s : State) (die key : Nat) (live : Bool) : State :=
  if !live then s.putVar die key 0
  else
    let v := ofLE ((leBytes 8 (s.var die key).toNat).mapIdx (fun i b => Config.markedByte (key + i) b))
    let t := s.putVar die key (BitVec.ofNat 64 v)
    t.setWharf die { t.wharf die with lost := (t.wharf die).lost ++ [key] }
/-- Launches whose window on a die holds a variable. -/
def State.windowed (s : State) (die off : Nat) : List Word :=
  (s.launches.filter (fun l => let w := recWin l.info die; decide (w.1 ≤ off) && decide (off < w.1 + w.2))).map (fun l => l.id)
/-- An uncorrectable error in a Wharf variable: the launches whose window on the die holds it are aborted (R354). -/
def loseVariable (s : State) (die off : Nat) (met : Word) (master : Nat) : State :=
  let hit := s.windowed die off
  loseWord (loseLaunches s 8 hit (BitVec.ofNat 64 off) met master) die (off / 8 * 8) (hit != [])
/-- An uncorrectable error in a sector of the Wharf overflow area, which is HBM: its eight variables are lost (R350, R354). -/
def loseOverflow (s : State) (die off : Nat) (met : Word) (master : Nat) : State :=
  let base := off / 64 * 64
  let hit := s.windowed die base
  (List.range 8).foldl (fun s i => loseWord s die (base + 8 * i) (hit != []))
    (loseLaunches s 1 hit (Config.overflowPlace die base) met master)
/-- The overflow variable that an error names, by die and offset: one in HBM (source 1) with bit 63 of `addr` set, the die in bits 27:26
and the offset below, or one in a Wharf (source 8) by an offset that its SRAM does not have (R194, R350). -/
def overflowAt (source unit : Nat) (addr : Word) : Option (Nat × Nat) :=
  let v : Nat × Nat := if source = 1 then (fld addr 26 2, fld addr 0 26) else (unit % 4, fld addr 0 26)
  if (if source = 1 then bit addr 63 else source == 8 && !bit addr 63) && decide (0x800000 ≤ v.2) then some v else none

/-- Launches whose operations have an identity in a Wharf's command log: from acceptance until the answer has landed (R199). -/
def State.logged (s : State) (die id : Nat) : List Word :=
  let w := s.wharf die
  (((w.inq ++ w.waiters.map (fun v => v.op) ++ w.heldArr.map (fun h => h.2) ++ w.reorder.map (fun h => h.2) ++
    w.log.filter s.owed).filter (fun o => o.id == id)).map (fun o => o.task.launch) ++
   (w.armed ++ w.stores ++ w.sent).filterMap (fun a => if a.id = id then some a.launch else none)).eraseDups

/-! ## Machine checks and edges (R355, R356) -/

/-- A lock-keeper stops: every collective, exchange and batch that its packet engine holds ends with LINK_FAILED, on every
rank; its harts stop, and its port's flits move (R355). It holds the commands of its own cores, and the collectives and
exchanges whose accumulators and packets stand in it. -/
def stopKeeper (s : State) (lk : Nat) : State :=
  let mine : List Cmd := s.allCmds.filter (fun k => homeOf (k.c / 4) == lk && k.fin.isNone)
  let q : Keeper := s.keeper lk
  let seqs : List (Word × Nat × BitVec 32) := (mine.filterMap (fun (k : Cmd) =>
      if k.port = 0x338 then some (k.task.launch, 0x338, descSeq k.info)
      else if k.port = 0x350 then some (k.task.launch, 0x350, mapSeq k.info) else none) ++
    q.accs.map (fun (a : Accum) => (a.launch, 0x338, a.seq)) ++
    q.buf.map (fun (p : Packet) => (p.launch, if isBlock p then 0x350 else 0x338, pktSeq p.hdr))).eraseDups
  let s0 := seqs.foldl (fun s e => failSeq s e.1 e.2.1 e.2.2 5) s
  let s1 := (mine.filter (fun k => k.port == 0x32D)).foldl (fun s k => finish s (k.c / 4) k.id 5 0) s0
  let k := s1.keeper lk
  let s2 := s1.setKeeper lk { k with
    stopped := true, accs := [], buf := [], emits := []
    harts := k.harts.map (fun (h : Nat × Hart) => (h.1, { h.2 with stopped := true })) }
  after s2 (execLinkDown lk s2)

/-- MACHINE_CHECK: a GP core stops, or a lock-keeper does (R355). -/
def execMachineCheck (master : Nat) (s : State) : Host.Outcome State Fault Refusal :=
  .next (if 384 ≤ master ∧ master < 400 then
      ({ s with gpStopped := if s.gpStopped.contains master then s.gpStopped else s.gpStopped ++ [master] }).event 0x0B 1 0 0 master
    else if 400 ≤ master ∧ master < 424 then (stopKeeper s (master - 400)).event 0x0C 1 0 0 master
    else s)

/-- The dies of an edge, as the pair in bits 3:0: the lower die in bits 3:2 and the higher in bits 1:0 (R356, R377). -/
def edgeOk (pair : BitVec 4) : Bool := pair == 0b0001 || pair == 0b1011 || pair == 0b0010 || pair == 0b0111

/-- What is on a way over an edge is discarded, as on a link declared down: packets and engine traffic end their commands with
LINK_FAILED (R228, R255, R268, R356). -/
def dropEdge (s : State) (pair : BitVec 4) : State :=
  let crosses (a b : Nat) : Bool := (edgesTo a b).contains pair
  let here (p : Packet) : Bool := match s.launchOf p.launch with
    | some l => entDev (pktEntry p.hdr 0) == l.rank
    | none => false
  let lostPkt (p : Packet) : Bool := Note.moves p.note && decide (p.src < 24) && here p && crosses (p.src / 6) (hopKeeper p / 6)
  let lostOut (o : Out) : Bool := match o.port with | some p => crosses o.die (p / 6) | none => false
  let s0 := State.slotFreed { s with
    flits := s.flits.filter (fun f =>
      !crosses (f.core / 96) (if f.port < 24 then f.port / 6 else dieOf (ctxOfPos f.msg.dst.toNat)))
    packets := s.packets.filter (fun p => !lostPkt p)
    outbound := s.outbound.filter (fun o => !lostOut o) }
  ((s.packets.filter lostPkt).map (fun p => (p.launch, Load.pkt p)) ++
    (s.outbound.filter lostOut).map (fun o => (o.load.launch, o.load))).foldl (fun s e => match s.launchOf e.1 with
      | some l => failLoad s l e.2
      | none => s) s0

/-- EDGE_FAILURE: the device goes out of service: it takes no further record, what is on a way over the edge is discarded,
every launch is aborted, and the event and the KIND 4 statement follow the last completion (R356). A launch whose statement has
been emitted, or that was cancelled, only has its record to come, which stays what it is. Before step 7 of R367 no kernel runs that
could sign. -/
def execEdgeFailure (pair : BitVec 4) (s : State) : Host.Outcome State Fault Refusal :=
  if !edgeOk pair || s.deadEdges.contains pair then .next s
  else
    let s0 := dropEdge s pair
    let s1 : State := { (s0.setMreg 0x10 4) with
      deadEdges := s.deadEdges ++ [pair]
      closed := true
      launches := s0.launches.map (fun (l : Launch) =>
        if l.stmt ≠ 0 ∨ l.stage = 5 then l else { l with verdict := 2, stage := 3, fault := none }) }
    .next (if s1.final ∨ s1.bootStep < 7 then s1.edgeEvent pair else closeGen s1)

/-- ERROR_DETECTED: an error in the structure that a source code names, corrected or not. `unit` is who met it
as `State.metBy` reads it, the port, or the master; for a Wharf it is the die, with 4 × (u + 1) added where an operation
of a unit u met the error. `addr` is what R358 puts in ADDR; bit 63 tells a saved image (source 0x07), named by its
address, an entry of a Wharf's command log (source 0x08), named by its operation, and the Wharf overflow area (source 0x01), named by
`overflowAt`. A retry of a link is no event (R350 to R355). -/
def execErrorDetected (source : BitVec 8) (uncorrectable : Bool) (unit : Nat) (addr : Word) (s : State) :
    Host.Outcome State Fault Refusal :=
  let n := source.toNat
  let a := addr.toNat
  let c := unit % 2048
  let core := c / 4
  let met := s.metBy unit
  let record (s : State) : State := s.event n 1 addr met (metMaster unit)
  let wmet := if unit < 4 then 0 else s.metBy (unit / 4 - 1)
  let wmaster := if unit < 4 then 0xFFFF else metMaster (unit / 4 - 1)
  if !uncorrectable then
    .next (match overflowAt n unit addr with
      | some (die, off) =>
        s.corrected 1 (Config.overflowPlace die (off / 64 * 64)) (if n = 1 then met else wmet) (if n = 1 then metMaster unit else wmaster)
      | none =>
        if 1 ≤ n ∧ n ≤ 7 then s.corrected n addr met (metMaster unit)
        else if n = 8 then s.corrected 8 addr wmet wmaster
        else if n = 0x0B ∨ n = 0x0C then s.corrected n addr 0 unit
        else s)
  else match overflowAt n unit addr with
  | some (die, off) => .next (loseOverflow s die off (if n = 1 then met else wmet) (if n = 1 then metMaster unit else wmaster))
  | none => match n with
  | 1 =>
    if !inHbm a then .next s
    else .next (record { s with mem := spoil s.mem (a / 64 * 64), marks := marksSet s.marks (a / 64) })
  | 2 =>
    if 1536 ≤ c ∨ 2 ^ 21 ≤ a then .next s
    else .next (record (s.updCore core (fun k => { k with tile := spoil k.tile (a / 64 * 64), tmarks := marksSet k.tmarks (a / 64) })))
  | 3 =>
    if 1536 ≤ c ∨ 16 * bayBytes ≤ a then .next s
    else .next (record (s.updCore core (fun k => { k with hold := spoil k.hold (a / 64 * 64), hmarks := marksSet k.hmarks (a / 64) })))
  | 4 =>
    if 1536 ≤ c ∨ 32 ≤ a then .next s
    else .next (record ((s.updCore core (fun k => { k with planes := NMap.put k.planes a (spoilPlane (k.plane a)) })).updLaunch met
      Launch.taintOnly))
  | 5 => .next (if 1536 ≤ c then s else record (s.updCtx c (fun x => spoilBeat x a)))
  | 6 => .next (if 1536 ≤ c then s else record (s.updCtx c spoilWbeat))
  | 7 => .next (if 1536 ≤ c then s else loseContext s c addr)
  | 8 => .next (if bit addr 63 then loseLaunches s 8 (s.logged (unit % 4) (fld addr 0 63)) addr wmet wmaster
      else loseVariable s (unit % 4) a wmet wmaster)
  | 9 => execLinkDown unit s
  | 0x0A => execEdgeFailure (BitVec.ofNat 4 a) s
  | 0x0B | 0x0C => execMachineCheck unit s
  | _ => .next s

/-- PATROL_SCRUB: every frame is read and checked; a clean pass changes nothing, and an error it meets is an event of its
own (R350). -/
def execPatrolScrub (s : State) : Host.Outcome State Fault Refusal := .next s

/-! ## Thermal self-refresh (R357) -/

/-- SELF_REFRESH_ENTRY: the stack's controller queues hold every access to it from now on. -/
def execSelfRefreshEntry (stack : Nat) (s : State) : Host.Outcome State Fault Refusal :=
  .next (if stack < 8 then { s with selfRef := s.selfRef ||| BitVec.ofNat 8 (2 ^ stack) } else s)

/-- A held access performs. -/
def performHeld (s : State) (h : Held) : State :=
  match h with
  | .sector core id sec => after s (execEngineSectorReturn core id sec s)
  | .berth c fid => after s (execBerthReply c fid s)
  | .record core id i => after s (execBatchRecordPerform core id i s)
  | .near core id => after s (execNearMemoryExecute core id s)
  | .port => portTurn s
  | .wharf die id => after s (execWharfOperationPerform die id s)
  | .fired die id => match (s.wharf die).stores.find? (fun a => a.id == id) with
    | some a => fireAgain s die a
    | none => s
  | .report die off code spid => tellReport s die (off, code, spid)
  | .landed die base => landHeld s die base
  | .block p => if p.payload = [] ∨ s.hasPkt p = true then after s (execAqueductBlockArrival p s) else s
  | .note p => if s.packets.contains p then after s (execPacketHop p s) else s
  | .stage c => after s (execStagingCopy c s)
  | .fetch c addr => after s (execBundleFetch c addr s)
  | .message m => after s (execMessageArrival m s)
  | .save c => after s (execContextSave c s)
  | .restore c => after s (execContextRestore c s)
  | .compress spid va => after s (execPageCompression spid va s)
  | .migrate spid va frame => after s (execPageMigration spid va frame s)
  | .mapped spid va pte => after s (execPageMapped spid va pte s)
  | .unmappable spid va => after s (execPageUnmappable spid va s)
  | .table base => s.placeTable base
  | .bytes pa bs => s.putMem pa bs
/-- SELF_REFRESH_EXIT: the held accesses perform in the order received. -/
def execSelfRefreshExit (stack : Nat) (s : State) : Host.Outcome State Fault Refusal :=
  if 8 ≤ stack ∨ !s.selfRef.getLsbD stack then .next s
  else
    let l := NMap.get [] s.srHeld stack
    .next (l.foldl performHeld { s with
      selfRef := s.selfRef &&& ~~~BitVec.ofNat 8 (2 ^ stack)
      srHeld := NMap.del s.srHeld stack })

/-! ## The module (R364, R380) -/

/-- The module is switched off: every running launch is gone without a completion record, and no statement is written
(R380). -/
def shutDown (s : State) : State := { s with powered := false, launches := [] }

/-- COOLANT_FLOW_LOW: the flow has stayed below its limit for 1 s (R380). -/
def execCoolantFlowLow (s : State) : Host.Outcome State Fault Refusal := .next (shutDown s)

/-- OVER_TEMPERATURE: new readings of the junctions, and of the stacks and the coolant, as TEMP, HBMTEMP and COOL hold them:
shutdown, throttling, or neither (R372, R380). -/
def execOverTemperature (junction : Word) (other : Word × Word) (s : State) : Host.Outcome State Fault Refusal :=
  let s1 := ((s.setMreg 0x500 junction).setMreg 0x508 other.1).setMreg 0x520 (BitVec.ofNat 64 (fld other.2 0 32))
  .next (if 1150 < hottest junction then shutDown s1 else s1.throttle)

/-- POWER_CAP_EXCEEDED: a new reading of the module's power; above the cap it throttles (R372, R380). -/
def execPowerCapExceeded (watts : Nat) (s : State) : Host.Outcome State Fault Refusal :=
  .next (s.setMreg 0x510 (BitVec.ofNat 64 watts)).throttle

/-- POWER_LOSS: power goes; counts that no committed statement holds can be lost (R364). -/
def execPowerLoss (s : State) : Host.Outcome State Fault Refusal := .next (shutDown s)

end Sys2Proof.Machine
end

