-- ==== Sys2Proof/Machine/Sf.lean ====
section
/-! DEFINITION. The scalar floating-point unit sf (R59 to R61). -/

namespace Sys2Proof.Machine

/-- A code in the low bits of a scalar, the high bits zero (R59). -/
def sfW (c : Nat) : Word := BitVec.ofNat 64 c

/-- One trigger of sf: .q lands at +4 (R59). -/
def sfTrig (f : Word → Word → Word) (g : BitVec 4) (src : BitVec 10) (s : State) : Host.Outcome State Fault Refusal :=
  trigger s g src [] [] (fun t => t.landS 4 0x084 (f (t.cx.aS 2) (t.cx.bS 2)))

/-- sf.fadd: round(a + b) (R60). -/
def execSfFadd (g : BitVec 4) (src : BitVec 10) (s : State) : Host.Outcome State Fault Refusal :=
  sfTrig (fun a b => sfW (fadd .fp32 (fld a 0 32) (fld b 0 32))) g src s

/-- sf.fsub: round(a − b) (R60). -/
def execSfFsub (g : BitVec 4) (src : BitVec 10) (s : State) : Host.Outcome State Fault Refusal :=
  sfTrig (fun a b => sfW (fsub .fp32 (fld a 0 32) (fld b 0 32))) g src s

/-- sf.fmul: round(a × b) (R60). -/
def execSfFmul (g : BitVec 4) (src : BitVec 10) (s : State) : Host.Outcome State Fault Refusal :=
  sfTrig (fun a b => sfW (fmul .fp32 (fld a 0 32) (fld b 0 32))) g src s

/-- sf.fmin: the smaller, −0 below +0 (R60). -/
def execSfFmin (g : BitVec 4) (src : BitVec 10) (s : State) : Host.Outcome State Fault Refusal :=
  sfTrig (fun a b => sfW (fmin .fp32 (fld a 0 32) (fld b 0 32))) g src s

/-- sf.fmax: the larger, +0 above −0 (R60). -/
def execSfFmax (g : BitVec 4) (src : BitVec 10) (s : State) : Host.Outcome State Fault Refusal :=
  sfTrig (fun a b => sfW (fmax .fp32 (fld a 0 32) (fld b 0 32))) g src s

/-- sf.feq: 1 if a = b (R60). -/
def execSfFeq (g : BitVec 4) (src : BitVec 10) (s : State) : Host.Outcome State Fault Refusal :=
  sfTrig (fun a b => sfEq a b) g src s

/-- sf.flt: 1 if a < b (R60). -/
def execSfFlt (g : BitVec 4) (src : BitVec 10) (s : State) : Host.Outcome State Fault Refusal :=
  sfTrig (fun a b => sfLt a b) g src s

/-- sf.fle: 1 if a ≤ b (R60). -/
def execSfFle (g : BitVec 4) (src : BitVec 10) (s : State) : Host.Outcome State Fault Refusal :=
  sfTrig (fun a b => sfLe a b) g src s

/-- sf.fun: 1 if either is NaN (R60). -/
def execSfFun (g : BitVec 4) (src : BitVec 10) (s : State) : Host.Outcome State Fault Refusal :=
  sfTrig (fun a b => sfUn a b) g src s

/-- sf.cvtw: FP32 to INT32 under MOD, sign-extended to 64 bits (R60). -/
def execSfCvtw (g : BitVec 4) (src : BitVec 10) (m : BitVec 3) (s : State) : Host.Outcome State Fault Refusal :=
  sfTrig (fun a _ => sext (sfW (encI .int32 m.toNat (f32 a))) 31) g src s

/-- sf.icvt: signed(.a), 64 bits, to FP32 under MOD (R60). -/
def execSfIcvt (g : BitVec 4) (src : BitVec 10) (m : BitVec 3) (s : State) : Host.Outcome State Fault Refusal :=
  sfTrig (fun a _ => sfW (encF .fp32 m.toNat (FV.ofInt a.toInt))) g src s

/-- sf.cvth: FP32 to FP16 under MOD (R60). -/
def execSfCvth (g : BitVec 4) (src : BitVec 10) (m : BitVec 3) (s : State) : Host.Outcome State Fault Refusal :=
  sfTrig (fun a _ => sfW (encF .fp16 m.toNat (f32 a))) g src s

/-- sf.cvtb: FP32 to BF16 under MOD (R60). -/
def execSfCvtb (g : BitVec 4) (src : BitVec 10) (m : BitVec 3) (s : State) : Host.Outcome State Fault Refusal :=
  sfTrig (fun a _ => sfW (encF .bf16 m.toNat (f32 a))) g src s

/-- sf.exth: FP16 to FP32, exact (R60). -/
def execSfExth (g : BitVec 4) (src : BitVec 10) (s : State) : Host.Outcome State Fault Refusal :=
  sfTrig (fun a _ => sfW (encF .fp32 0 (decF .fp16 (fld a 0 16)))) g src s

/-- sf.extb: BF16 to FP32, exact (R60). -/
def execSfExtb (g : BitVec 4) (src : BitVec 10) (s : State) : Host.Outcome State Fault Refusal :=
  sfTrig (fun a _ => sfW (encF .fp32 0 (decF .bf16 (fld a 0 16)))) g src s

end Sys2Proof.Machine
end

