-- ==== Sys2Proof/Machine/Sfn.lean ====
section
/-! DEFINITION. The special-function unit sfn (R93 to R99). BF16 and FP16 results, and the FP32 results of rcp and
sqrt, are correctly rounded; the other FP32 results are a free choice among the values that R95 and R96 allow (log 1). The
real values are approximated in fixed point with 192 fraction bits, far below any rounding boundary that an input of these
formats comes near (log 6). -/

namespace Sys2Proof.Machine

/-- Fraction bits of the fixed-point evaluation. -/
def fpP : Nat := 192
/-- log 2 in that fixed point. -/
def fpLn2 : Nat := 0xb17217f7d1cf79abc9e3b39803f2f6af40f343267298b62d

/-- The exponential series from term k on: `n` more terms of t^k / k!. -/
def expSer : Nat → Nat → Nat → Nat → Nat
  | 0, _, _, _ => 0
  | n + 1, k, t, term => term + expSer n (k + 1) t ((term * t) >>> fpP / (k + 1))

/-- The series of the inverse hyperbolic tangent from the j-th odd power on, `zz` the square of the argument. -/
def atanhSer : Nat → Nat → Nat → Nat → Nat
  | 0, _, _, _ => 0
  | n + 1, j, zz, term => term / (2 * j + 1) + atanhSer n (j + 1) zz ((term * zz) >>> fpP)

/-- A finite value in fixed point, cut below. -/
def toFix (neg : Bool) (m : Nat) (e : Int) : Int :=
  let v : Nat := if 0 ≤ e + fpP then m * 2 ^ (e + fpP).toNat else m >>> (-(e + fpP)).toNat
  if neg then -(v : Int) else v

/-- A fixed-point number as a value. -/
def ofFix (i : Int) : FV := .fin (decide (i < 0)) i.natAbs (-(fpP : Int))

/-- |m × 2^e| is 2^11 or more. -/
def isHuge (m : Nat) (e : Int) : Bool := m != 0 && decide (12 ≤ e + bitLen m)

/-- 2^x, or e^x where `nat`, of a finite x. -/
def expV (nat neg : Bool) (m : Nat) (e : Int) : FV :=
  if isHuge m e then .fin false 1 (if neg then -5000 else 5000)
  else
    let x := toFix neg m e
    let d : Int := if nat then fpLn2 else 2 ^ fpP
    let r := (x % d).toNat
    let t := if nat then r else (r * fpLn2) >>> fpP
    .fin false (expSer 50 0 t (2 ^ fpP)) (x / d - fpP)

/-- log 2 x, or log e x where `nat`, of a positive finite x. -/
def logV (nat : Bool) (m : Nat) (e : Int) : FV :=
  let b := bitLen m - 1
  let k : Int := e + b
  let s := m * 2 ^ (fpP - b)
  let z := (s - 2 ^ fpP) * 2 ^ fpP / (s + 2 ^ fpP)
  let l := 2 * atanhSer 64 0 ((z * z) >>> fpP) z
  if nat then ofFix (k * fpLn2 + l) else ofFix (k * 2 ^ fpP + (l * 2 ^ fpP / fpLn2 : Nat))

/-- One, slightly less. -/
def belowOne : FV := .fin false (2 ^ fpP - 1) (-(fpP : Int))
/-- One. -/
def oneV : FV := .fin false 1 0

/-- The magnitude of tanh of a finite non-zero value of magnitude m × 2^e. -/
def tanhV (m : Nat) (e : Int) : FV :=
  if 6 ≤ e + bitLen m then belowOne
  else if e + bitLen m < -12 then
    let x := (toFix false m e).toNat
    let t := (x * x) >>> fpP
    let t2 := (t * t) >>> fpP
    let h := 2 ^ fpP - t / 3 + 2 * t2 / 15 - 17 * ((t2 * t) >>> fpP) / 315 - 1
    .fin false (m * h) (e - fpP)
  else
    let y := expV true false m (e + 1)
    (sumFV [y, oneV.negate]).quot (sumFV [y, oneV])

/-- 1 / (1 + e^−x) of a finite value. -/
def logisticV (neg : Bool) (m : Nat) (e : Int) : FV :=
  if isHuge m e then (if neg then .fin false 1 (-5000) else belowOne)
  else oneV.quot (sumFV [oneV, expV true (!neg) m e])

/-- The functions of R93; the saturating ports share theirs with the plain ones. -/
inductive Sf where
  | exp2 | log2 | exp | ln | rcp | rsqrt | sqrt | tanh | logistic
  deriving DecidableEq, Repr

/-- Number of a function: bits 3:0 of its plain port. -/
def Sf.code : Sf → BitVec 4
  | .exp2 => 0 | .log2 => 1 | .exp => 2 | .ln => 3 | .rcp => 4 | .rsqrt => 5 | .sqrt => 6 | .tanh => 7 | .logistic => 8

/-- The magnitude and sign of f(x) for a finite x outside the special values (R95). -/
def Sf.real (f : Sf) (neg : Bool) (m : Nat) (e : Int) : FV :=
  match f with
  | .exp2 => expV false neg m e
  | .exp => expV true neg m e
  | .log2 => logV false m e
  | .ln => logV true m e
  | .rcp => oneV.quot (.fin neg m e)
  | .sqrt => FV.root (.fin false m e)
  | .rsqrt => FV.root (oneV.quot (.fin false m e))
  | .tanh => match tanhV m e with | .fin _ k d => .fin neg k d | v => v
  | .logistic => logisticV neg m e

/-- The special values of R97, with the negative inputs of log2, ln, sqrt and rsqrt. -/
def Sf.special (f : Sf) (x : FV) : Option FV :=
  match x with
  | .nan => some .nan
  | .inf neg => some (match f with
    | .exp2 | .exp => if neg then .fin false 0 0 else .inf false
    | .log2 | .ln => if neg then .nan else .inf false
    | .rcp => .fin neg 0 0
    | .rsqrt => if neg then .nan else .fin false 0 0
    | .sqrt => if neg then .nan else .inf false
    | .tanh => .fin neg 1 0
    | .logistic => if neg then .fin false 0 0 else oneV)
  | .fin neg 0 _ => some (match f with
    | .exp2 | .exp => oneV
    | .log2 | .ln => .inf true
    | .rcp | .rsqrt => .inf neg
    | .sqrt | .tanh => .fin neg 0 0
    | .logistic => .fin false 1 (-1))
  | .fin true _ _ => match f with
    | .log2 | .ln | .sqrt | .rsqrt => some .nan
    | _ => none
  | _ => none

/-- The number is a power of two. -/
def pow2 (m : Nat) : Bool := m != 0 && m == 2 ^ (bitLen m - 1)

/-- The number has a magnitude above 149: as the exponent k of 2^k below 0, FP32 has no such power (R95). -/
def deep (m : Nat) (e : Int) : Bool := decide (149 < if 0 ≤ e then m * 2 ^ e.toNat else m / 2 ^ (-e).toNat)

/-- The exact points of R96 among the finite inputs that R97 does not list; 2^k below 2^−149 is none, and which of the
values of R95 it gives is free (log 1). -/
def Sf.exact (f : Sf) (neg : Bool) (m : Nat) (e : Int) : Bool :=
  match f with
  | .exp2 => (decide (0 ≤ e) || decide (m % 2 ^ (-e).toNat = 0)) && !(neg && deep m e)
  | .log2 => pow2 m
  | .ln => pow2 m && decide (e + bitLen m = 1)
  | .rsqrt => pow2 m && decide ((e + bitLen m - 1) % 2 = 0)
  | _ => false

/-- The error bound of R93 in units of the last place. -/
def Sf.bound : Sf → Nat
  | .exp2 | .log2 | .rsqrt => 1
  | .rcp | .sqrt => 0
  | _ => 2

/-- A result at an FP32 code (without sign) keeps the bounds of R96 towards its neighbours' exact points. -/
def Sf.inRange (f : Sf) (neg : Bool) (z : FV) : Bool :=
  match f with
  | .exp => if neg then z.le oneV else oneV.le z
  | .exp2 => if neg then z.le oneV else oneV.le z
  | .logistic => if neg then z.le (.fin false 1 (-1)) else (FV.fin false 1 (-1)).le z && z.le oneV
  | .tanh => z.le oneV
  | _ => true

/-- The magnitudes of FP32 that R95 and R96 allow around |y|, in rising order: finite, and within B units of the last
place of y. -/
def sfnAllowed (f : Sf) (neg : Bool) (y : FV) : List Nat :=
  match y with
  | .fin _ k d =>
    let c0 := encF .fp32 1 (.fin false k d)
    let ulp : FV := .fin false (f.bound) (max (d + bitLen k - 1) (-126) - 23)
    ((List.range 9).map (fun i => c0 + i - 5)).eraseDups.filter (fun c =>
      decide (c ≤ maxCode .fp32) &&
      (match sumFV [decF .fp32 c, .fin true k d] with
        | .fin _ p q => (FV.fin false p q).le ulp
        | _ => false) && f.inRange neg (decF .fp32 c))
  | _ => []

/-- The value for an FP32 input is one of those that R95 leaves open: it is neither special, nor exact, nor correctly rounded,
nor an infinity. -/
def Sf.open' (f : Sf) (c : Nat) : Bool :=
  match f.special (decF .fp32 c), decF .fp32 c with
  | none, .fin neg m e => f.bound != 0 && !f.exact neg m e && encF .fp32 0 (f.real neg m e) % 2 ^ 31 != 0x7F800000
  | _, _ => false
/-- The correctly rounded result for one element's code in format F. -/
def sfnRound (f : Sf) (sat : Bool) (fm : Fmt) (c : Nat) : Nat :=
  let md := if sat then 4 else 0
  match f.special (decF fm c), decF fm c with
  | some v, _ => encF fm md v
  | none, .fin neg m e => encF fm md (f.real neg m e)
  | none, _ => nanCode fm
/-- The value that the free choice names for an FP32 code (log 1); tanh takes it from the magnitude, and is odd (R96). -/
def sfnFree (f : Sf) (c : Nat) : Nat :=
  match decF .fp32 c with
  | .fin neg m e =>
    let y := f.real neg m e
    (match sfnAllowed f neg y with
      | [] => sfnRound f false .fp32 c
      | l => signBit .fp32 y.neg? +
          l.getD (Config.sfnPick f.code (BitVec.ofNat 32 (if f == .tanh then c % 2 ^ 31 else c)) % l.length) 0)
  | _ => sfnRound f false .fp32 c

/-- A test holds of every number below n. -/
def below (p : Nat → Bool) : Nat → Bool
  | 0 => true
  | n + 1 => p n && below p n
/-- The number that an FP32 code stands for, in units that keep the order. -/
def codeOrder (c : Nat) : Int := if c < 2 ^ 31 then (c : Int) else (2 ^ 31 : Int) - c
/-- The free choice of a function is monotonic over the finite inputs (R96): towards larger magnitudes on each side of zero, where
the function has that side, and across zero. -/
def Sf.monotonic (f : Sf) : Bool :=
  let r (c : Nat) : Int := codeOrder (if f.open' c then sfnFree f c else sfnRound f false .fp32 c)
  let one := f == .log2 || f == .ln || f == .rsqrt
  below (fun j => (if f == .rsqrt then decide (r (j + 1) ≤ r j) else decide (r j ≤ r (j + 1))) &&
    (one || decide (r (2 ^ 31 + j + 1) ≤ r (2 ^ 31 + j)))) 0x7F7FFFFF && (one || decide (r (2 ^ 31) ≤ r 0))

/-- The result of a function for one element's code in format F (R94 to R98): where R95 leaves it open, the free choice, as long
as that is monotonic as a whole (R96), and else the correctly rounded value. -/
def sfnElem (f : Sf) (sat : Bool) (fm : Fmt) (c : Nat) : Nat :=
  if fm == .fp32 && f.open' c then (if f.monotonic then sfnFree f c else sfnRound f false .fp32 c) else sfnRound f sat fm c

/-- A trigger of sfn (R93, R94). -/
def sfnTrig (f : Sf) (sat : Bool) (lat : Nat) (g : BitVec 4) (src : BitVec 10) (s : State) :
    Host.Outcome State Fault Refusal :=
  let a := s.cx.aV 5
  let fm := if a.unt then .fp32 else a.tag
  trigger s g src [chk (!clsF fm) s.cls5] [] (fun t =>
    t.land lat 0x08A (.v ⟨lanesOf 1024 (fun i => packLane fm (fun k => sfnElem f sat fm (elem fm (lane a.lanes i) k))), fm, false⟩))

/-- sfn.exp2 (R93). -/
def execSfnExp2 (g : BitVec 4) (src : BitVec 10) (s : State) : Host.Outcome State Fault Refusal :=
  sfnTrig .exp2 false 6 g src s

/-- sfn.log2 (R93). -/
def execSfnLog2 (g : BitVec 4) (src : BitVec 10) (s : State) : Host.Outcome State Fault Refusal :=
  sfnTrig .log2 false 6 g src s

/-- sfn.exp (R93). -/
def execSfnExp (g : BitVec 4) (src : BitVec 10) (s : State) : Host.Outcome State Fault Refusal :=
  sfnTrig .exp false 8 g src s

/-- sfn.ln (R93). -/
def execSfnLn (g : BitVec 4) (src : BitVec 10) (s : State) : Host.Outcome State Fault Refusal :=
  sfnTrig .ln false 8 g src s

/-- sfn.rcp (R93). -/
def execSfnRcp (g : BitVec 4) (src : BitVec 10) (s : State) : Host.Outcome State Fault Refusal :=
  sfnTrig .rcp false 6 g src s

/-- sfn.rsqrt (R93). -/
def execSfnRsqrt (g : BitVec 4) (src : BitVec 10) (s : State) : Host.Outcome State Fault Refusal :=
  sfnTrig .rsqrt false 6 g src s

/-- sfn.sqrt (R93). -/
def execSfnSqrt (g : BitVec 4) (src : BitVec 10) (s : State) : Host.Outcome State Fault Refusal :=
  sfnTrig .sqrt false 8 g src s

/-- sfn.tanh (R93). -/
def execSfnTanh (g : BitVec 4) (src : BitVec 10) (s : State) : Host.Outcome State Fault Refusal :=
  sfnTrig .tanh false 10 g src s

/-- sfn.logistic (R93). -/
def execSfnLogistic (g : BitVec 4) (src : BitVec 10) (s : State) : Host.Outcome State Fault Refusal :=
  sfnTrig .logistic false 10 g src s

/-- sfn.exp2.s (R93). -/
def execSfnExp2S (g : BitVec 4) (src : BitVec 10) (s : State) : Host.Outcome State Fault Refusal :=
  sfnTrig .exp2 true 6 g src s

/-- sfn.exp.s (R93). -/
def execSfnExpS (g : BitVec 4) (src : BitVec 10) (s : State) : Host.Outcome State Fault Refusal :=
  sfnTrig .exp true 8 g src s

/-- sfn.rcp.s (R93). -/
def execSfnRcpS (g : BitVec 4) (src : BitVec 10) (s : State) : Host.Outcome State Fault Refusal :=
  sfnTrig .rcp true 6 g src s

end Sys2Proof.Machine
end

