-- ==== Sys2Proof/Machine/Dispatch.lean ====
section
/-! DEFINITION. The meaning of every instruction and event: one arm per constructor of Instr. -/

namespace Sys2Proof.Machine

def exec (i : Instr) (s : State) : Host.Outcome State Fault Refusal :=
  match i with
  | .move g src d => Sys2Proof.Machine.execMove g src d s
  | .nop => Sys2Proof.Machine.execNop s
  | .iaAdd g src u => Sys2Proof.Machine.execIaAdd g src u s
  | .iaSub g src u => Sys2Proof.Machine.execIaSub g src u s
  | .iaAddw g src u => Sys2Proof.Machine.execIaAddw g src u s
  | .iaSubw g src u => Sys2Proof.Machine.execIaSubw g src u s
  | .iaAnd g src u => Sys2Proof.Machine.execIaAnd g src u s
  | .iaOr g src u => Sys2Proof.Machine.execIaOr g src u s
  | .iaXor g src u => Sys2Proof.Machine.execIaXor g src u s
  | .iaAndn g src u => Sys2Proof.Machine.execIaAndn g src u s
  | .iaSll g src u => Sys2Proof.Machine.execIaSll g src u s
  | .iaSrl g src u => Sys2Proof.Machine.execIaSrl g src u s
  | .iaSra g src u => Sys2Proof.Machine.execIaSra g src u s
  | .iaRor g src u => Sys2Proof.Machine.execIaRor g src u s
  | .iaMin g src u => Sys2Proof.Machine.execIaMin g src u s
  | .iaMax g src u => Sys2Proof.Machine.execIaMax g src u s
  | .iaMinu g src u => Sys2Proof.Machine.execIaMinu g src u s
  | .iaMaxu g src u => Sys2Proof.Machine.execIaMaxu g src u s
  | .iaMul g src u => Sys2Proof.Machine.execIaMul g src u s
  | .iaMulu g src u => Sys2Proof.Machine.execIaMulu g src u s
  | .iaMulsu g src u => Sys2Proof.Machine.execIaMulsu g src u s
  | .iaMulw g src u => Sys2Proof.Machine.execIaMulw g src u s
  | .iaEq g src u => Sys2Proof.Machine.execIaEq g src u s
  | .iaLt g src u => Sys2Proof.Machine.execIaLt g src u s
  | .iaLtu g src u => Sys2Proof.Machine.execIaLtu g src u s
  | .iaTst g src u => Sys2Proof.Machine.execIaTst g src u s
  | .iaClz g src u => Sys2Proof.Machine.execIaClz g src u s
  | .iaCtz g src u => Sys2Proof.Machine.execIaCtz g src u s
  | .iaPopc g src u => Sys2Proof.Machine.execIaPopc g src u s
  | .iaBswap g src u => Sys2Proof.Machine.execIaBswap g src u s
  | .iaSext g src u => Sys2Proof.Machine.execIaSext g src u s
  | .iaZext g src u => Sys2Proof.Machine.execIaZext g src u s
  | .iaBfxu g src u => Sys2Proof.Machine.execIaBfxu g src u s
  | .iaBfxs g src u => Sys2Proof.Machine.execIaBfxs g src u s
  | .iaCat g src u => Sys2Proof.Machine.execIaCat g src u s
  | .iaLea g src u k => Sys2Proof.Machine.execIaLea g src u k s
  | .iaAddsat g src u => Sys2Proof.Machine.execIaAddsat g src u s
  | .iaSubsat g src u => Sys2Proof.Machine.execIaSubsat g src u s
  | .sfFadd g src => Sys2Proof.Machine.execSfFadd g src s
  | .sfFsub g src => Sys2Proof.Machine.execSfFsub g src s
  | .sfFmul g src => Sys2Proof.Machine.execSfFmul g src s
  | .sfFmin g src => Sys2Proof.Machine.execSfFmin g src s
  | .sfFmax g src => Sys2Proof.Machine.execSfFmax g src s
  | .sfFeq g src => Sys2Proof.Machine.execSfFeq g src s
  | .sfFlt g src => Sys2Proof.Machine.execSfFlt g src s
  | .sfFle g src => Sys2Proof.Machine.execSfFle g src s
  | .sfFun g src => Sys2Proof.Machine.execSfFun g src s
  | .sfCvtw g src m => Sys2Proof.Machine.execSfCvtw g src m s
  | .sfIcvt g src m => Sys2Proof.Machine.execSfIcvt g src m s
  | .sfCvth g src m => Sys2Proof.Machine.execSfCvth g src m s
  | .sfCvtb g src m => Sys2Proof.Machine.execSfCvtb g src m s
  | .sfExth g src => Sys2Proof.Machine.execSfExth g src s
  | .sfExtb g src => Sys2Proof.Machine.execSfExtb g src s
  | .va0Fadd g src => Sys2Proof.Machine.execVa0Fadd g src s
  | .va0Fsub g src => Sys2Proof.Machine.execVa0Fsub g src s
  | .va0Fmul g src => Sys2Proof.Machine.execVa0Fmul g src s
  | .va0Fmin g src => Sys2Proof.Machine.execVa0Fmin g src s
  | .va0Fmax g src => Sys2Proof.Machine.execVa0Fmax g src s
  | .va0Fabs g src => Sys2Proof.Machine.execVa0Fabs g src s
  | .va0Fneg g src => Sys2Proof.Machine.execVa0Fneg g src s
  | .va0Fdot g src => Sys2Proof.Machine.execVa0Fdot g src s
  | .va0Feq g src => Sys2Proof.Machine.execVa0Feq g src s
  | .va0Flt g src => Sys2Proof.Machine.execVa0Flt g src s
  | .va0Fle g src => Sys2Proof.Machine.execVa0Fle g src s
  | .va0Fun g src => Sys2Proof.Machine.execVa0Fun g src s
  | .va0Add g src => Sys2Proof.Machine.execVa0Add g src s
  | .va0Sub g src => Sys2Proof.Machine.execVa0Sub g src s
  | .va0Mul g src => Sys2Proof.Machine.execVa0Mul g src s
  | .va0Min g src => Sys2Proof.Machine.execVa0Min g src s
  | .va0Max g src => Sys2Proof.Machine.execVa0Max g src s
  | .va0Abs g src => Sys2Proof.Machine.execVa0Abs g src s
  | .va0Addsat g src => Sys2Proof.Machine.execVa0Addsat g src s
  | .va0Subsat g src => Sys2Proof.Machine.execVa0Subsat g src s
  | .va0Eq g src => Sys2Proof.Machine.execVa0Eq g src s
  | .va0Lt g src => Sys2Proof.Machine.execVa0Lt g src s
  | .va0Le g src => Sys2Proof.Machine.execVa0Le g src s
  | .va0Idot g src => Sys2Proof.Machine.execVa0Idot g src s
  | .va0Sll g src => Sys2Proof.Machine.execVa0Sll g src s
  | .va0Srl g src => Sys2Proof.Machine.execVa0Srl g src s
  | .va0Sra g src => Sys2Proof.Machine.execVa0Sra g src s
  | .va0And g src => Sys2Proof.Machine.execVa0And g src s
  | .va0Or g src => Sys2Proof.Machine.execVa0Or g src s
  | .va0Xor g src => Sys2Proof.Machine.execVa0Xor g src s
  | .va0Andn g src => Sys2Proof.Machine.execVa0Andn g src s
  | .va0Cvt g src m => Sys2Proof.Machine.execVa0Cvt g src m s
  | .va0Fma g src k => Sys2Proof.Machine.execVa0Fma g src k s
  | .va0Fms g src k => Sys2Proof.Machine.execVa0Fms g src k s
  | .va0Fnma g src k => Sys2Proof.Machine.execVa0Fnma g src k s
  | .va0Fclamp g src k => Sys2Proof.Machine.execVa0Fclamp g src k s
  | .va0Iclamp g src k => Sys2Proof.Machine.execVa0Iclamp g src k s
  | .va0Sel g src m => Sys2Proof.Machine.execVa0Sel g src m s
  | .va1Fadd g src => Sys2Proof.Machine.execVa1Fadd g src s
  | .va1Fsub g src => Sys2Proof.Machine.execVa1Fsub g src s
  | .va1Fmul g src => Sys2Proof.Machine.execVa1Fmul g src s
  | .va1Fmin g src => Sys2Proof.Machine.execVa1Fmin g src s
  | .va1Fmax g src => Sys2Proof.Machine.execVa1Fmax g src s
  | .va1Fabs g src => Sys2Proof.Machine.execVa1Fabs g src s
  | .va1Fneg g src => Sys2Proof.Machine.execVa1Fneg g src s
  | .va1Fdot g src => Sys2Proof.Machine.execVa1Fdot g src s
  | .va1Feq g src => Sys2Proof.Machine.execVa1Feq g src s
  | .va1Flt g src => Sys2Proof.Machine.execVa1Flt g src s
  | .va1Fle g src => Sys2Proof.Machine.execVa1Fle g src s
  | .va1Fun g src => Sys2Proof.Machine.execVa1Fun g src s
  | .va1Add g src => Sys2Proof.Machine.execVa1Add g src s
  | .va1Sub g src => Sys2Proof.Machine.execVa1Sub g src s
  | .va1Mul g src => Sys2Proof.Machine.execVa1Mul g src s
  | .va1Min g src => Sys2Proof.Machine.execVa1Min g src s
  | .va1Max g src => Sys2Proof.Machine.execVa1Max g src s
  | .va1Abs g src => Sys2Proof.Machine.execVa1Abs g src s
  | .va1Addsat g src => Sys2Proof.Machine.execVa1Addsat g src s
  | .va1Subsat g src => Sys2Proof.Machine.execVa1Subsat g src s
  | .va1Eq g src => Sys2Proof.Machine.execVa1Eq g src s
  | .va1Lt g src => Sys2Proof.Machine.execVa1Lt g src s
  | .va1Le g src => Sys2Proof.Machine.execVa1Le g src s
  | .va1Idot g src => Sys2Proof.Machine.execVa1Idot g src s
  | .va1Sll g src => Sys2Proof.Machine.execVa1Sll g src s
  | .va1Srl g src => Sys2Proof.Machine.execVa1Srl g src s
  | .va1Sra g src => Sys2Proof.Machine.execVa1Sra g src s
  | .va1And g src => Sys2Proof.Machine.execVa1And g src s
  | .va1Or g src => Sys2Proof.Machine.execVa1Or g src s
  | .va1Xor g src => Sys2Proof.Machine.execVa1Xor g src s
  | .va1Andn g src => Sys2Proof.Machine.execVa1Andn g src s
  | .va1Cvt g src m => Sys2Proof.Machine.execVa1Cvt g src m s
  | .va1Fma g src k => Sys2Proof.Machine.execVa1Fma g src k s
  | .va1Fms g src k => Sys2Proof.Machine.execVa1Fms g src k s
  | .va1Fnma g src k => Sys2Proof.Machine.execVa1Fnma g src k s
  | .va1Fclamp g src k => Sys2Proof.Machine.execVa1Fclamp g src k s
  | .va1Iclamp g src k => Sys2Proof.Machine.execVa1Iclamp g src k s
  | .va1Sel g src m => Sys2Proof.Machine.execVa1Sel g src m s
  | .sfnExp2 g src => Sys2Proof.Machine.execSfnExp2 g src s
  | .sfnLog2 g src => Sys2Proof.Machine.execSfnLog2 g src s
  | .sfnExp g src => Sys2Proof.Machine.execSfnExp g src s
  | .sfnLn g src => Sys2Proof.Machine.execSfnLn g src s
  | .sfnRcp g src => Sys2Proof.Machine.execSfnRcp g src s
  | .sfnRsqrt g src => Sys2Proof.Machine.execSfnRsqrt g src s
  | .sfnSqrt g src => Sys2Proof.Machine.execSfnSqrt g src s
  | .sfnTanh g src => Sys2Proof.Machine.execSfnTanh g src s
  | .sfnLogistic g src => Sys2Proof.Machine.execSfnLogistic g src s
  | .sfnExp2S g src => Sys2Proof.Machine.execSfnExp2S g src s
  | .sfnExpS g src => Sys2Proof.Machine.execSfnExpS g src s
  | .sfnRcpS g src => Sys2Proof.Machine.execSfnRcpS g src s
  | .xchRotr g src => Sys2Proof.Machine.execXchRotr g src s
  | .xchShfr g src => Sys2Proof.Machine.execXchShfr g src s
  | .xchXorr g src => Sys2Proof.Machine.execXchXorr g src s
  | .xchTr16 g src => Sys2Proof.Machine.execXchTr16 g src s
  | .xchRotc g src => Sys2Proof.Machine.execXchRotc g src s
  | .xchShfc g src => Sys2Proof.Machine.execXchShfc g src s
  | .xchXorc g src => Sys2Proof.Machine.execXchXorc g src s
  | .xchBcrow g src => Sys2Proof.Machine.execXchBcrow g src s
  | .xchBccol g src => Sys2Proof.Machine.execXchBccol g src s
  | .xchBclane g src => Sys2Proof.Machine.execXchBclane g src s
  | .xchPermr g src k => Sys2Proof.Machine.execXchPermr g src k s
  | .xchPermc g src k => Sys2Proof.Machine.execXchPermc g src k s
  | .redCsumPs g src n => Sys2Proof.Machine.execRedCsumPs g src n s
  | .redCmaxPs g src n => Sys2Proof.Machine.execRedCmaxPs g src n s
  | .redRsum g src => Sys2Proof.Machine.execRedRsum g src s
  | .redRmax g src => Sys2Proof.Machine.execRedRmax g src s
  | .redRscan g src => Sys2Proof.Machine.execRedRscan g src s
  | .redCscan g src => Sys2Proof.Machine.execRedCscan g src s
  | .redCsum g src => Sys2Proof.Machine.execRedCsum g src s
  | .redCmax g src => Sys2Proof.Machine.execRedCmax g src s
  | .lsLd8u g src => Sys2Proof.Machine.execLsLd8u g src s
  | .lsLd16u g src => Sys2Proof.Machine.execLsLd16u g src s
  | .lsLd32u g src => Sys2Proof.Machine.execLsLd32u g src s
  | .lsLd64 g src => Sys2Proof.Machine.execLsLd64 g src s
  | .lsLd8s g src => Sys2Proof.Machine.execLsLd8s g src s
  | .lsLd16s g src => Sys2Proof.Machine.execLsLd16s g src s
  | .lsLd32s g src => Sys2Proof.Machine.execLsLd32s g src s
  | .lsSt8 g src => Sys2Proof.Machine.execLsSt8 g src s
  | .lsSt16 g src => Sys2Proof.Machine.execLsSt16 g src s
  | .lsSt32 g src => Sys2Proof.Machine.execLsSt32 g src s
  | .lsSt64 g src => Sys2Proof.Machine.execLsSt64 g src s
  | .lsVld g src => Sys2Proof.Machine.execLsVld g src s
  | .lsVst g src => Sys2Proof.Machine.execLsVst g src s
  | .lsBerth g src => Sys2Proof.Machine.execLsBerth g src s
  | .strBindf g src n => Sys2Proof.Machine.execStrBindf g src n s
  | .strBindd g src n => Sys2Proof.Machine.execStrBindd g src n s
  | .mxPush g src => Sys2Proof.Machine.execMxPush g src s
  | .mxShift g src => Sys2Proof.Machine.execMxShift g src s
  | .mxAcc g src => Sys2Proof.Machine.execMxAcc g src s
  | .mxPacc g src => Sys2Proof.Machine.execMxPacc g src s
  | .mxSacc g src => Sys2Proof.Machine.execMxSacc g src s
  | .mxDrain g src => Sys2Proof.Machine.execMxDrain g src s
  | .mxHpset g src => Sys2Proof.Machine.execMxHpset g src s
  | .mxRmask g src => Sys2Proof.Machine.execMxRmask g src s
  | .mxCmask g src => Sys2Proof.Machine.execMxCmask g src s
  | .mxAccxld g src => Sys2Proof.Machine.execMxAccxld g src s
  | .mxAccxst g src => Sys2Proof.Machine.execMxAccxst g src s
  | .mxMdq g src => Sys2Proof.Machine.execMxMdq g src s
  | .wrCfg g src => Sys2Proof.Machine.execWrCfg g src s
  | .wrLoad g src => Sys2Proof.Machine.execWrLoad g src s
  | .wrBeat g src => Sys2Proof.Machine.execWrBeat g src s
  | .wrLeaf g src => Sys2Proof.Machine.execWrLeaf g src s
  | .synLd g src => Sys2Proof.Machine.execSynLd g src s
  | .synSt g src => Sys2Proof.Machine.execSynSt g src s
  | .synAdd g src => Sys2Proof.Machine.execSynAdd g src s
  | .synFadd g src => Sys2Proof.Machine.execSynFadd g src s
  | .synMin g src => Sys2Proof.Machine.execSynMin g src s
  | .synMax g src => Sys2Proof.Machine.execSynMax g src s
  | .synMinu g src => Sys2Proof.Machine.execSynMinu g src s
  | .synMaxu g src => Sys2Proof.Machine.execSynMaxu g src s
  | .synAnd g src => Sys2Proof.Machine.execSynAnd g src s
  | .synOr g src => Sys2Proof.Machine.execSynOr g src s
  | .synXor g src => Sys2Proof.Machine.execSynXor g src s
  | .synSwap g src => Sys2Proof.Machine.execSynSwap g src s
  | .synArrive g src => Sys2Proof.Machine.execSynArrive g src s
  | .synExpect g src => Sys2Proof.Machine.execSynExpect g src s
  | .synWait g src => Sys2Proof.Machine.execSynWait g src s
  | .synTwait g src => Sys2Proof.Machine.execSynTwait g src s
  | .synCas g src k => Sys2Proof.Machine.execSynCas g src k s
  | .synCwait g src => Sys2Proof.Machine.execSynCwait g src s
  | .synCinc g src => Sys2Proof.Machine.execSynCinc g src s
  | .synArm g src => Sys2Proof.Machine.execSynArm g src s
  | .synCreset g src => Sys2Proof.Machine.execSynCreset g src s
  | .synCresetF g src => Sys2Proof.Machine.execSynCresetF g src s
  | .synBatch g src => Sys2Proof.Machine.execSynBatch g src s
  | .synSend g src => Sys2Proof.Machine.execSynSend g src s
  | .synRecv g src => Sys2Proof.Machine.execSynRecv g src s
  | .synPset g src => Sys2Proof.Machine.execSynPset g src s
  | .synColl g src => Sys2Proof.Machine.execSynColl g src s
  | .engTld g src => Sys2Proof.Machine.execEngTld g src s
  | .engTst g src => Sys2Proof.Machine.execEngTst g src s
  | .engHld g src => Sys2Proof.Machine.execEngHld g src s
  | .engWait g src => Sys2Proof.Machine.execEngWait g src s
  | .engTcvt g src m => Sys2Proof.Machine.execEngTcvt g src m s
  | .engAq g src => Sys2Proof.Machine.execEngAq g src s
  | .engPeerwr g src => Sys2Proof.Machine.execEngPeerwr g src s
  | .engPeerrd g src => Sys2Proof.Machine.execEngPeerrd g src s
  | .engNmFuse g src => Sys2Proof.Machine.execEngNmFuse g src s
  | .engNmSadd g src => Sys2Proof.Machine.execEngNmSadd g src s
  | .engNmRed g src => Sys2Proof.Machine.execEngNmRed g src s
  | .engNmFill g src => Sys2Proof.Machine.execEngNmFill g src s
  | .engNmCopy g src => Sys2Proof.Machine.execEngNmCopy g src s
  | .ctlJmp g src => Sys2Proof.Machine.execCtlJmp g src s
  | .ctlBr g src => Sys2Proof.Machine.execCtlBr g src s
  | .ctlCall g src => Sys2Proof.Machine.execCtlCall g src s
  | .ctlCallr g src => Sys2Proof.Machine.execCtlCallr g src s
  | .ctlEnd g src => Sys2Proof.Machine.execCtlEnd g src s
  | .ctlSys g src => Sys2Proof.Machine.execCtlSys g src s
  | .ctlBrk g src => Sys2Proof.Machine.execCtlBrk g src s
  | .ctlIfence g src => Sys2Proof.Machine.execCtlIfence g src s
  | .ctlLoop g src l => Sys2Proof.Machine.execCtlLoop g src l s
  | .ctlLoopend g src l => Sys2Proof.Machine.execCtlLoopend g src l s
  | .ctlRetag g src => Sys2Proof.Machine.execCtlRetag g src s
  | .ctlRdsr g src => Sys2Proof.Machine.execCtlRdsr g src s
  | .ctlWrsr g src => Sys2Proof.Machine.execCtlWrsr g src s
  | .ctlQmark g src => Sys2Proof.Machine.execCtlQmark g src s
  | .ctlFence g src sc => Sys2Proof.Machine.execCtlFence g src sc s
  | .ctlQuiesce g src => Sys2Proof.Machine.execCtlQuiesce g src s
  | .bundleFetch c addr => Sys2Proof.Machine.execBundleFetch c addr s
  | .resultLanding c => Sys2Proof.Machine.execResultLanding c s
  | .berthReply c fid => Sys2Proof.Machine.execBerthReply c fid s
  | .berthLanding c => Sys2Proof.Machine.execBerthLanding c s
  | .endpointTimeout c => Sys2Proof.Machine.execEndpointTimeout c s
  | .deadline c => Sys2Proof.Machine.execDeadline c s
  | .checkpointOverdue c => Sys2Proof.Machine.execCheckpointOverdue c s
  | .engineSectorReturn core id sec => Sys2Proof.Machine.execEngineSectorReturn core id sec s
  | .sectorTimeout core id sec => Sys2Proof.Machine.execSectorTimeout core id sec s
  | .wharfOperationPerform die id => Sys2Proof.Machine.execWharfOperationPerform die id s
  | .wharfReply c fid => Sys2Proof.Machine.execWharfReply c fid s
  | .twaitTimeout die id => Sys2Proof.Machine.execTwaitTimeout die id s
  | .batchRecordPerform core id rec => Sys2Proof.Machine.execBatchRecordPerform core id rec s
  | .messageArrival msg => Sys2Proof.Machine.execMessageArrival msg s
  | .messageAcknowledgement id => Sys2Proof.Machine.execMessageAcknowledgement id s
  | .receiveLanding c => Sys2Proof.Machine.execReceiveLanding c s
  | .flitResend port => Sys2Proof.Machine.execFlitResend port s
  | .linkDown port => Sys2Proof.Machine.execLinkDown port s
  | .peerTransferArrival x => Sys2Proof.Machine.execPeerTransferArrival x s
  | .packetHop pkt => Sys2Proof.Machine.execPacketHop pkt s
  | .lkemit lk hart addr rec => Sys2Proof.Machine.execLkemit lk hart addr rec s
  | .lkcmdtail lk hart val => Sys2Proof.Machine.execLkcmdtail lk hart val s
  | .hartException lk hart mtvecZero => Sys2Proof.Machine.execHartException lk hart mtvecZero s
  | .aqueductBlockArrival pkt => Sys2Proof.Machine.execAqueductBlockArrival pkt s
  | .nearMemoryExecute core id => Sys2Proof.Machine.execNearMemoryExecute core id s
  | .pageExpansion spid va => Sys2Proof.Machine.execPageExpansion spid va s
  | .pageCompression spid va => Sys2Proof.Machine.execPageCompression spid va s
  | .pageMigration spid va frame => Sys2Proof.Machine.execPageMigration spid va frame s
  | .pageRequest master spid va => Sys2Proof.Machine.execPageRequest master spid va s
  | .pageMapped spid va pte => Sys2Proof.Machine.execPageMapped spid va pte s
  | .pageUnmappable spid va => Sys2Proof.Machine.execPageUnmappable spid va s
  | .trapReturn c => Sys2Proof.Machine.execTrapReturn c s
  | .trapEnd c => Sys2Proof.Machine.execTrapEnd c s
  | .interrupt c => Sys2Proof.Machine.execInterrupt c s
  | .preemptionRequest c => Sys2Proof.Machine.execPreemptionRequest c s
  | .contextHalt c => Sys2Proof.Machine.execContextHalt c s
  | .contextSave c => Sys2Proof.Machine.execContextSave c s
  | .contextRestore c => Sys2Proof.Machine.execContextRestore c s
  | .launchAcceptance => Sys2Proof.Machine.execLaunchAcceptance s
  | .phaseBoundary launch => Sys2Proof.Machine.execPhaseBoundary launch s
  | .taskBinding die => Sys2Proof.Machine.execTaskBinding die s
  | .stagingCopy c => Sys2Proof.Machine.execStagingCopy c s
  | .taskStart c => Sys2Proof.Machine.execTaskStart c s
  | .taskRetirement launch task => Sys2Proof.Machine.execTaskRetirement launch task s
  | .runLimit core => Sys2Proof.Machine.execRunLimit core s
  | .launchCompletion launch => Sys2Proof.Machine.execLaunchCompletion launch s
  | .quiescePerformed spid => Sys2Proof.Machine.execQuiescePerformed spid s
  | .quiesce val => Sys2Proof.Machine.execQuiesce val s
  | .shoot val => Sys2Proof.Machine.execShoot val s
  | .sack val => Sys2Proof.Machine.execSack val s
  | .poolpush val => Sys2Proof.Machine.execPoolpush val s
  | .poolpop kernel => Sys2Proof.Machine.execPoolpop kernel s
  | .slotval val => Sys2Proof.Machine.execSlotval val s
  | .atval val => Sys2Proof.Machine.execAtval val s
  | .dbgctl val => Sys2Proof.Machine.execDbgctl val s
  | .managementRegisterWrite kernel off val => Sys2Proof.Machine.execManagementRegisterWrite kernel off val s
  | .release htag => Sys2Proof.Machine.execRelease htag s
  | .cancel htag => Sys2Proof.Machine.execCancel htag s
  | .statementRequest => Sys2Proof.Machine.execStatementRequest s
  | .attestationReport launch addr nonce => Sys2Proof.Machine.execAttestationReport launch addr nonce s
  | .presentStatement addr => Sys2Proof.Machine.execPresentStatement addr s
  | .importStatement addr => Sys2Proof.Machine.execImportStatement addr s
  | .dbgInterrupt => Sys2Proof.Machine.execDbgInterrupt s
  | .dbgSave => Sys2Proof.Machine.execDbgSave s
  | .dbgResume => Sys2Proof.Machine.execDbgResume s
  | .dbgRestore => Sys2Proof.Machine.execDbgRestore s
  | .dbgEnd => Sys2Proof.Machine.execDbgEnd s
  | .powerOnReset => Sys2Proof.Machine.execPowerOnReset s
  | .errorDetected source uncorrectable unit addr => Sys2Proof.Machine.execErrorDetected source uncorrectable unit addr s
  | .patrolScrub => Sys2Proof.Machine.execPatrolScrub s
  | .machineCheck master => Sys2Proof.Machine.execMachineCheck master s
  | .edgeFailure pair => Sys2Proof.Machine.execEdgeFailure pair s
  | .selfRefreshEntry stack => Sys2Proof.Machine.execSelfRefreshEntry stack s
  | .selfRefreshExit stack => Sys2Proof.Machine.execSelfRefreshExit stack s
  | .coolantFlowLow => Sys2Proof.Machine.execCoolantFlowLow s
  | .overTemperature junction other => Sys2Proof.Machine.execOverTemperature junction other s
  | .powerCapExceeded watts => Sys2Proof.Machine.execPowerCapExceeded watts s
  | .ualinkAtomicRequest port => Sys2Proof.Machine.execUalinkAtomicRequest port s
  | .hostLinkWrite storage spid addr data => Sys2Proof.Machine.execHostLinkWrite storage spid addr data s
  | .slotGrant channel waiting => Sys2Proof.Machine.execSlotGrant channel waiting s
  | .powerLoss => Sys2Proof.Machine.execPowerLoss s
  | .orderlyShutdown => Sys2Proof.Machine.execOrderlyShutdown s
  | .migrationOut => Sys2Proof.Machine.execMigrationOut s

end Sys2Proof.Machine
end

