-- ==== Sys2Proof/Machine/Select.lean ====
section
/-! DEFINITION. What happens in a wall cycle: the switch-on-stall selector of each core (R304 to R307, R321), then one turn of
everything on the device that acts of its own accord, in one order (log 3). -/

namespace Sys2Proof.Machine

/-! ## The selector -/

/-- The task's launch has been aborted: its task issues nothing more (R282). -/
def State.aborted (s : State) (c : Nat) : Bool :=
  match s.launchOf (s.ctx c).launchId with | some l => l.stage == 3 | none => false

/-- A context is tried: an interrupt asked for takes effect at its group boundary (R317), else its next group is tried. -/
def tryCtx (run : Run) (s : State) (c : Nat) : Fate × State :=
  if s.aborted c then (.idle, s)
  else if (s.ctx c).runs && s.intReq.contains c then (.halted, interruptCtx s c)
  else attempt run s c

/-- The other contexts of the core whose group can issue now, one that ends the task or traps after it included (R304). -/
def othersReady (run : Run) (s : State) (k j : Nat) : List Nat :=
  ([1, 2, 3].map (fun d => (j + d) % 4)).filter (fun i =>
    match (tryCtx run s (4 * k + i)).1 with | .issued | .ended => true | _ => false)

/-- The width is with context j of a core after a number of groups, or idle; the contexts found ready at a run's limit. -/
def State.setWidth (s : State) (k j n : Nat) (idle : Bool) (ready : List Nat) : State :=
  s.updCore k (fun x => { x with width := j, run := n, idle := idle, ready := ready })

/-- Contexts tried in turn until one uses the issue slot of the wall cycle (R304, R306). `hold` is the context whose run
goes on. From the 1,024th group of a run on, the contexts that are ready are noted, and RUN_LIMIT passes the width on. -/
def pick (run : Run) (s : State) (k : Nat) (hold : Option Nat) : List Nat → State
  | [] => s.updCore k (fun x => { x with idle := true })
  | j :: t =>
    let c := 4 * k + j
    let n := if hold = some j then (s.core k).run + 1 else 1
    match tryCtx run s c with
    | (.issued, u) =>
      u.setWidth k j n false (if 1024 ≤ n ∧ (u.core k).preempt ≠ some c then othersReady run u k j else [])
    | (.ended, u) => u.setWidth k j 0 true []
    | (.fetch, u) => if hold = some j then u else pick run u k hold t
    | (.trapped, u) | (.halted, u) =>
      pick run (if hold = some j then u.setWidth k j 0 true [] else u) k hold t
    | (.frozen, u) | (.idle, u) => pick run u k hold t

/-- The order in which a core's contexts are tried: the one that a pre-emption request names, the one whose run goes on,
then the others in cyclic order after the one that held the width last (R304, R306, R321). -/
def tryOrder (x : Core) (k : Nat) : List Nat :=
  ((match x.preempt with | some c => if c / 4 = k then [c % 4] else [] | none => []) ++
   (if x.idle then [] else [x.width]) ++ [1, 2, 3, 4].map (fun d => (x.width + d) % 4)).eraseDups

/-- One wall cycle of a core. -/
def coreTurn (run : Run) (s : State) (k : Nat) : State :=
  let x := s.core k
  pick run s k (if x.idle then none else some x.width) (tryOrder x k)

/-! ## What acts of its own accord -/

/-- An event that is tried. -/
abbrev Act := State → Host.Outcome State Fault Refusal

/-- Contexts and their items (R65, R136, R217, R316, R317, R320, R322, R330). -/
def ctxActs (s : State) : List Act :=
  s.ctxs.flatMap (fun e =>
    let c := e.1
    let x := e.2
    (match x.form with | .need a => if x.runs then [execBundleFetch c a] else [] | _ => []) ++
    x.snap.filterMap (fun f => match f.item with
      | .berth _ _ .absent _ => some (execBerthReply c f.fid)
      | .wharf _ _ .absent _ => some (execWharfReply c f.fid)
      | _ => none) ++
    [execEndpointTimeout c, execTrapReturn c, execTrapEnd c] ++
    (if s.intReq.contains c ∧ x.runs then [execInterrupt c] else []) ++
    [execContextHalt c, execContextSave c]) ++
  s.saved.map (fun v => execContextRestore v.c)

/-- Pending commands (R143, R164, R212, R270, R276). -/
def cmdActs (s : State) : List Act :=
  s.cores.flatMap (fun e => e.2.cmds.flatMap (fun k =>
    if k.ended.isSome then [fun s => .next (finish s e.1 k.id 0 0)]
    else if k.port = 0x32D then k.left.map (fun i => execBatchRecordPerform e.1 k.id i)
    else if 0x358 ≤ k.port ∧ k.port ≤ 0x35C then [execNearMemoryExecute e.1 k.id]
    else if k.port = 0x351 ∨ k.port = 0x352 then
      (match s.launchOf k.task.launch with
       | some l => [execPeerTransferArrival
           ⟨BitVec.ofNat 16 l.rank, BitVec.ofNat 11 (corePos e.1), BitVec.ofNat 16 (fld k.a 48 16), BitVec.ofNat 11 (fld k.a 32 11),
            BitVec.ofNat 21 (fld k.a 0 21), 0, [], if k.port = 0x351 then .write else .read, 0, 0, k.id, l.id⟩]
       | none => [])
    else if k.port = 0x338 then (if k.hasJoined then [] else [fun s => .next (joinColl s e.1 k.id)])
    else if k.port = 0x350 ∨ k.port = 0x329 then []
    else k.left.map (fun i => execEngineSectorReturn e.1 k.id i))) ++
  s.saved.flatMap (fun v => v.cmds.filterMap (fun k =>
    if 0x358 ≤ k.port ∧ k.port ≤ 0x35C then some (execNearMemoryExecute (k.c / 4) k.id) else none))

/-- The next block that the sender of an exchange cuts for a rank: one element (R263). -/
def nextBlock (k : Cmd) (launch : Word) (rank : Nat) : Option Packet :=
  let m := k.info
  let me := mapRank m
  ((List.range (mapTotal m)).find? (fun off => mapCoord m off (mapRpos m) == me && !k.done.contains (sentKey m rank off))).map (fun off =>
    let entry := (k.ranks.getD rank 0).toNat
    ⟨BitVec.ofNat 512 ((mapW m + 63) / 64 % 64 * 2 ^ 16 + 1 * 2 ^ 29 + (mapSeq m).toNat * 2 ^ 32 + me * 2 ^ 64 + me * 2 ^ 74 +
      (mapN m - 1) * 2 ^ 84 + 1 * 2 ^ 112 + (off + entry % 8192 * 2 ^ 30 + entry / 8192 % 65536 * 2 ^ 44 + 4 * 2 ^ 60) * 2 ^ 128), [],
      launch, homeOf (k.c / 4), 0, 0, .data⟩)

/-- Packets and blocks, and the emits whose payload is still to be read (R245, R248, R264). -/
def packetActs (s : State) : List Act :=
  let hop (p : Packet) : Act := if isBlock p && (Note.moves p.note || Note.isWait p.note) then execAqueductBlockArrival p else execPacketHop p
  s.packets.map hop ++ s.keepers.flatMap (fun e => e.2.buf.map hop) ++
  s.keepers.flatMap (fun e => e.2.emits.map (fun m s => .next (readEmit s e.1 m))) ++
  s.allCmds.flatMap (fun k =>
    if k.port = 0x350 ∧ k.fin.isNone then (List.range (mapN k.info)).filterMap (fun r =>
      (nextBlock k k.task.launch r).map execAqueductBlockArrival) else [])

/-- Wharves and messages (R199, R200, R205, R209, R225, R227, R228). Another device's acknowledgements come from outside
(R382). -/
def wharfActs (s : State) : List Act :=
  s.wharfs.flatMap (fun e =>
    e.2.inq.map (fun o => execWharfOperationPerform e.1 o.id) ++ e.2.waiters.map (fun w => execTwaitTimeout e.1 w.op.id) ++
    (e.2.stores.filter (fun a => fld a.info 0 4 == 3)).map (fun a s => .next (fireAgain s e.1 a)) ++
    e.2.reports.map (fun r s => .next (tellReport s e.1 r)) ++ e.2.replies.map (fun r => execWharfReply r.1 r.2.1)) ++
  [fun s => .next (departFlits s)] ++
  s.flits.flatMap (fun f => execMessageArrival f.msg ::
    (if (s.launchOf f.msg.launch).any (fun l => f.msg.ddev.toNat == l.rank) then [execMessageAcknowledgement f.id] else []))

/-- The ROM runs once the host has named a kernel image, on a device in service (R356, R367). -/
def bootAct : Act := fun s => .next (if s.bootStep = 0 ∧ s.mreg 8 ≠ 0 ∧ !s.outOfService then bootRom s else s)
/-- The kernel takes a host command (R374). -/
def commandAct : Act := fun s => .next (takeCommand s)
/-- Tasks and launches (R285, R286, R292, R294, R299, R302, R303, R309, R348, R366, R367, R374). -/
def launchActs (s : State) : List Act :=
  [bootAct, commandAct, fun s => .next (portTurn s), fun s => .next (dropLost s), fun s => .next (dbgTurn s)] ++
  s.quiescing.map execQuiescePerformed ++
  s.launches.map (fun l => execLaunchCompletion l.id) ++ [execLaunchAcceptance] ++
  s.launches.flatMap (fun l => l.tstat.filterMap (fun e => match e.2 with
    | .ended _ => some (execTaskRetirement l.id e.1)
    | _ => none)) ++
  s.launches.map (fun l => execPhaseBoundary l.id) ++
  [execTaskBinding 0, execTaskBinding 1, execTaskBinding 2, execTaskBinding 3] ++
  (List.range 4).map (fun d s => match s.victim d with | some c => execPreemptionRequest c s | none => .next s) ++
  (s.ctxs.filter (fun e => e.2.stat == .staging)).flatMap (fun e => [execTaskStart e.1, execStagingCopy e.1]) ++
  (if s.nearBound ∧ s.open' then [execStatementRequest] else [])

/-- Everything that may act, each tried once in turn. -/
def deviceActs (s : State) : List Act :=
  (s.cores.filter (fun e => e.2.ready != [])).map (fun e => execRunLimit e.1) ++ ctxActs s ++
  (waitedFor s).map (fun p => execPageExpansion p.1 (BitVec.ofNat 64 p.2)) ++ cmdActs s ++ packetActs s ++ wharfActs s ++ launchActs s

/-- The device's turn at the end of a wall cycle. -/
def deviceTurn (s : State) : State := (deviceActs s).foldl (fun s f => after s (f s)) s

/-! ## One step -/

/-- Cores that hold a context with a task, from core `k` on. -/
def State.busyFrom (s : State) (k : Nat) : Option Nat :=
  (s.ctxs.filter (fun e => decide (4 * k ≤ e.1) && e.2.task.isSome)).head?.map (fun e => e.1 / 4)

/-- One core's turn, or the end of the wall cycle: the device's turn, and the clock moves on. -/
def turn (run : Run) (s : State) : State :=
  match s.busyFrom s.cur with
  | some k => { (coreTurn run s k) with cur := k + 1 }
  | none => { (deviceTurn s) with cur := 0, wall := s.wall + 1 }

/-- The next event of the surroundings happens, or a turn is taken; a device without power loses every event but the one
that switches it on, and does nothing of its own accord (log 4). -/
def stepWith (run : Run) (exec : Instr → State → Host.Outcome State Fault Refusal) (s : State) : Host.Outcome State Fault Refusal :=
  match s.inbox with
  | i :: t =>
    if s.powered then exec i { s with inbox := t }
    else match i with
      | .powerOnReset => exec .powerOnReset { s with inbox := t }
      | _ => .next { s with inbox := t }
  | [] => if s.powered then .next (turn run s) else .fault .poweredOff

end Sys2Proof.Machine
end

