-- ==== Sys2Proof/Machine/Slot.lean ====
section
/-! DEFINITION. How one slot of a group is run: the meaning of its decoded instruction, or the class 2 stop of R38 where no
row of the operation table defines it; the same as compiled code; and the bundle in which the host's question puts a word. -/

namespace Sys2Proof.Machine

/-- A slot that is no move of the part stops its group with ILLEGAL_ENCODING of class 2 (R38). -/
def illegalSlot (s : State) : Host.Outcome State Fault Refusal := .next (s.halt s.cls2)

/-- One slot runs. -/
noncomputable def runSlot (w : BitVec 24) (s : State) : Host.Outcome State Fault Refusal :=
  match decodeSlot w with
  | .ok i => exec i s
  | .error _ => illegalSlot s

/-- A DEST code matches a row of the table. -/
def matchesAny (l : List Row) (d : Nat) : Bool := l.any (fun r => decide (d &&& r.mask = r.pat))

/-- One slot runs, with the meanings of the last five ctl rows called directly (see `rowsLast`). -/
def runSlotCompiled (w : BitVec 24) (s : State) : Host.Outcome State Fault Refusal :=
  let g := slotGuard w
  let src := slotSource w
  let d := slotDest w
  if g = 0 ∧ src = 0 ∧ d = 0 then exec .nop s
  else if !legalSrc src then illegalSlot s
  else if legalDst d then exec (.move g src d) s
  else if matchesAny firstRows d.toNat then
    match findRow firstRows g src d.toNat with
    | some i => exec i s
    | none => illegalSlot s
  else if d.toNat &&& 0x3FF = 0x371 then Sys2Proof.Machine.execCtlRdsr g src s
  else if d.toNat &&& 0x3FF = 0x372 then Sys2Proof.Machine.execCtlWrsr g src s
  else if d.toNat &&& 0x3FF = 0x373 then Sys2Proof.Machine.execCtlQmark g src s
  else if d.toNat &&& 0x3F0 = 0x380 then
    if 10 < d.toNat % 16 then illegalSlot s else Sys2Proof.Machine.execCtlFence g src (BitVec.ofNat 4 d.toNat) s
  else if d.toNat &&& 0x3FF = 0x390 then Sys2Proof.Machine.execCtlQuiesce g src s
  else illegalSlot s

theorem findRow_append (a b : List Row) (g : BitVec 4) (s : BitVec 10) (d : Nat) :
    findRow (a ++ b) g s d = if matchesAny a d then findRow a g s d else findRow b g s d := by
  induction a with
  | nil => simp [matchesAny]
  | cons r t ih =>
    by_cases h : d &&& r.mask = r.pat
    · simp [findRow, matchesAny, h]
    · simp only [List.cons_append, findRow, if_neg h, ih]
      simp [matchesAny, h]

@[csimp] theorem runSlot_eq_compiled : @runSlot = @runSlotCompiled := by
  funext w s
  simp only [runSlot, runSlotCompiled, decodeSlot, decodeFields]
  by_cases h0 : slotGuard w = 0 ∧ slotSource w = 0 ∧ slotDest w = 0
  · simp only [if_pos h0]
  by_cases h1 : (!legalSrc (slotSource w)) = true
  · simp only [if_neg h0, if_pos h1]
  by_cases h2 : legalDst (slotDest w) = true
  · simp only [if_neg h0, if_neg h1, if_pos h2]
  simp only [if_neg h0, if_neg h1, if_neg h2, triggerRows, findRow_append]
  by_cases h3 : matchesAny firstRows (slotDest w).toNat = true
  · simp only [if_pos h3]
    cases findRow firstRows (slotGuard w) (slotSource w) (slotDest w).toNat <;> rfl
  simp only [if_neg h3, rowsLast, findRow]
  by_cases h4 : (slotDest w).toNat &&& 0x3FF = 0x371
  · simp only [if_pos h4]; rfl
  by_cases h5 : (slotDest w).toNat &&& 0x3FF = 0x372
  · simp only [if_neg h4, if_pos h5]; rfl
  by_cases h6 : (slotDest w).toNat &&& 0x3FF = 0x373
  · simp only [if_neg h4, if_neg h5, if_pos h6]; rfl
  by_cases h7 : (slotDest w).toNat &&& 0x3F0 = 0x380
  · simp only [if_neg h4, if_neg h5, if_neg h6, if_pos h7]
    by_cases h8 : 10 < (slotDest w).toNat % 16
    · simp only [if_pos h8]
    · simp only [if_neg h8]; rfl
  by_cases h9 : (slotDest w).toNat &&& 0x3FF = 0x390
  · simp only [if_neg h4, if_neg h5, if_neg h6, if_neg h7, if_pos h9]; rfl
  simp only [if_neg h4, if_neg h5, if_neg h6, if_neg h7, if_neg h9]

/-- The bundle whose one slot holds a word: VALID 1, STOP 1, nothing else (R23 to R26). -/
def oneSlot (w : BitVec 24) : BitVec 256 := BitVec.ofNat 256 (0x101 + w.toNat * 2 ^ 64)

end Sys2Proof.Machine
end

