-- ==== Sys2Proof/Machine/Step.lean ====
section
/-! DEFINITION. One step of the device, and the state in which the next step runs a given slot. -/

namespace Sys2Proof.Machine

/-- One step: the next event of the surroundings, or one core's group, or the device's own turn (R381, log 3). -/
def step (s : State) : Host.Outcome State Fault Refusal := stepWith runSlot exec s

/-- The state in which the next step issues a group of the one slot w as context 0 of core 0. A program comes to run only
through a launch; this stands for what the launch does (log 23): the context has a task, a budget and the fetched bundle,
holds the issue width alone, and nothing of it is due, frozen or asked for. -/
def State.withFetchWord (s : State) (_nbits w : Nat) : State :=
  let x := s.ctx 0
  let t : State := { s with inbox := [], powered := true, cur := 0, intReq := s.intReq.filter (fun c => c != 0) }
  let u := t.setCore 0 { s.core 0 with width := 0, run := 0, idle := true, ready := [], preempt := none }
  u.setCtx 0 { x with
    stat := .ready
    task := if s.aborted 0 then some ⟨0, 0⟩ else some (x.task.getD ⟨0, 0⟩)
    slot := 0, budget := 0xFFFFFFFF, ckpt := x.lclk, fence := none, frozenAt := none, frozenSend := none, frz := none
    snap := x.snap.filter (fun f => decide (x.lclk.toNat < f.due.toNat))
    ibuf := [(x.pc.toNat, .bundle (oneSlot (BitVec.ofNat 24 w)))] }

end Sys2Proof.Machine
end

