-- ==== Sys2Proof/WellFormed.lean ====
section
/-! DEFINITION. Well-formed instructions: the constructors' fields the encodings allow. An event is well formed whatever
its arguments are: its preconditions are conditions on the state. -/

namespace Sys2Proof

/-- The fields of a move are ones that a legal slot holds: a legal SOURCE code (R29 to R31); for a plain move a legal
DEST code (R32) and not the all-zero slot, which is `nop` (R25); no reserved loop level or fence scope (R63). -/
def WellFormed (i : Instr) : Bool :=
  match i with
  | .move g s d => legalSrc s && legalDst d && !(g == 0 && s == 0 && d == 0)
  | .ctlLoop _ s l => legalSrc s && l != 3
  | .ctlLoopend _ s l => legalSrc s && l != 3
  | .ctlFence _ s sc => legalSrc s && decide (sc.toNat ≤ 10)
  | i => match fieldsOf i with
    | some (_, s, _) => legalSrc s
    | none => true

end Sys2Proof
end

