-- ==== Sys2Proof/Safety.lean ====
section
/-! DEFINITION. What a safe run of this device is, in the terms the statements use: every step answers a next state, and every
memory of the device stands in its one canonical form. -/

namespace Sys2Proof.Machine

/-- The step answers a next state: neither a fault nor a refusal. -/
def State.steps (s : State) : Prop := ∃ t, step s = .next t

/-- A run of n steps in which each answers a next state. -/
def State.runsFor : Nat → State → Prop
  | 0, _ => True
  | n + 1, s => ∃ t, step s = .next t ∧ State.runsFor n t

/-- Physical memory is in canonical form, and so is every compressed page, whose bytes stand at offsets below 256 MiB. -/
def State.physOK (s : State) : Bool :=
  Mem.wf s.mem && s.tier.all (fun e => Mem.wf e.2.bytes && e.2.bytes.all (fun b => decide (b.1 < 2 ^ 28)))

/-- Tile SRAM and Hold of every core are in canonical form. -/
def State.coresOK (s : State) : Bool := s.cores.all (fun e => Mem.wf e.2.tile && Mem.wf e.2.hold)

/-- The memories of every lock-keeper's harts are in canonical form. -/
def State.keepersOK (s : State) : Bool :=
  s.keepers.all (fun e => e.2.harts.all (fun h => Mem.wf h.2.fw && Mem.wf h.2.rt))

/-- Every memory of the device is in canonical form. -/
def State.memOK (s : State) : Bool := s.physOK && s.coresOK && s.keepersOK

/-- No launch that the device knows is TAINTED (R297). -/
def State.clean (s : State) : Bool := s.launches.all (fun l => decide (l.verdict < 2))

/-! ## When a move issues, in the terms of the statements -/

/-- A vector register of code `n` lies in the context's allocation (R12). -/
def Ctx.inAlloc (x : Ctx) (n : Nat) : Bool := decide (x.vbase + 0x040 ≤ n) && decide (n < x.vbase + 0x040 + x.vcount)

/-- A source can be read: a legal code (R29 to R31), L0 and L1 only where the bundle carries them (R28), a vector register
of the allocation (R12), a fill stream that is bound, not at its end and free of held ranges (R150). -/
def State.srcReady (s : State) (src : BitVec 10) : Bool :=
  let n := src.toNat
  legalSrc src && (n != 0x0C6 || s.iss.l0.isSome) && (n != 0x0C7 || s.iss.l1.isSome) &&
  (decide (n < 0x040) || decide (0x060 ≤ n) || s.cx.inAlloc n) &&
  (decide (n < 0x070) || decide (0x078 ≤ n) ||
    (!streamEnd (s.cx.fill (n - 0x070)) && !streamHeld s.cx s.ck s.iss.gid (s.cx.fill (n - 0x070))))

/-- A destination can be written from a source: a legal code (R32) of a width the source fits (R10, R34), no KB tag for a vector
register or a latch (R40), a vector register of the allocation (R12), a drain stream that is bound, not at its end and free of
held ranges (R150). -/
def State.dstReady (s : State) (src dst : BitVec 10) : Bool :=
  let n := dst.toNat
  legalDst dst && !widthBad (s.cx.srcWd src) (dstWd dst) && (s.moveCls src dst).all (fun k => k.isNone) &&
  (decide (n < 0x040) || decide (0x060 ≤ n) || s.cx.inAlloc n) &&
  (decide (n < 0x070) || decide (0x074 ≤ n) ||
    (!streamEnd (s.cx.drain (n - 0x070)) && !streamHeld s.cx s.ck s.iss.gid (s.cx.drain (n - 0x070))))

/-- The guard of a move is true and its source can be read. -/
def State.mayIssue (s : State) (g : BitVec 4) (src : BitVec 10) : Bool := s.guardOn g && s.srcReady src

/-- The next step tries the group `l` of context c and its trial passes every stage of R381 before the checks of the moves:
no event waits, the core of context c is the next with a task, no context that it tries before c runs, context c runs, its
launch is not aborted, nobody asks it to halt, its bundles are there, every item due is present and no landing traps, budget
is left, the checkpoint is not overdue, no fence holds the group, and its moves are independent. -/
def State.issues (s : State) (c : Nat) (l : List GMove) (pc : Word) (slot : Nat) : Bool :=
  let x := s.ctx c
  s.inbox.isEmpty && s.powered && decide (s.busyFrom s.cur = some (c / 4)) &&
  ((tryOrder (s.core (c / 4)) (c / 4)).takeWhile (fun j => j != c % 4)).all (fun j =>
    s.aborted (4 * (c / 4) + j) || !(s.ctx (4 * (c / 4) + j)).runs) && !s.aborted c && x.runs && !s.intReq.contains c &&
  decide (x.form = .group l pc slot) && !s.asked c && !x.dueItems.any x.absentItem && (landTrap s c).isNone &&
  x.budget != 0 && (x.ckptNext || decide ((x.lclk - x.ckpt).toNat < 8192)) && s.fenceOpen c &&
  (depStop x.vbase (l.map (fun m => m.word))).isNone

/-- The state after the step in which a group of context c, tried in `s`, has left `t`: the group is closed; its run of groups is
one longer where it held the width before, or begins; at a full run the contexts that can issue are noted (R304); a task that ended
or trapped gives the width up; and the next turn is the next core's. -/
def State.afterGroup (t s : State) (c : Nat) (ck : Bool) : State :=
  let k := c / 4
  let j := c % 4
  let u := closeGroup t c ck
  let n := if (s.core k).idle = false ∧ (s.core k).width = j then (s.core k).run + 1 else 1
  let v := if (u.ctx c).stat = .ready then
      u.setWidth k j n false (if 1024 ≤ n ∧ (u.core k).preempt ≠ some c then othersReady runSlot u k j else [])
    else u.setWidth k j 0 true []
  { v with cur := k + 1 }

/-- One result of a trigger is on its way: after the read of its source, `v` lands at port `dst` at logical cycle n + lat. -/
def State.lands (s : State) (src : BitVec 10) (lat dst : Nat) (v : PVal) : State := (s.afterRead src).land lat dst v

/-- The two results of an ia trigger are on their way: .q and .q2 of the unit, at n + lat (R57). -/
def State.iaLands (s : State) (src : BitVec 10) (u : BitVec 1) (lat : Nat) (q q2 : Word) : State :=
  ((s.afterRead src).landS lat (0x080 + 2 * u.toNat) q).landS lat (0x081 + 2 * u.toNat) q2

/-- A trigger of va`v` may fire: it may issue, the unit is in no busy window (R9), and the tags fit (R75). -/
def State.vaReady (s : State) (g : BitVec 4) (src : BitVec 10) (v : Nat) (cls : Fmt → Bool) (d : Fmt) (useB : Bool) : Bool :=
  s.mayIssue g src && !s.cx.busy v && !tagBad cls d useB (s.cx.aV (3 + v)) (s.cx.bV (3 + v))

/-- The outcome of a trigger of va`v` is that .q with tag `f` and lanes `q`, and .q2 with tag MASK and lanes `q2`, land at +6
and the unit is busy for the next three cycles (R77). -/
def State.vaLands (s : State) (src : BitVec 10) (v : Nat) (o : Host.Outcome State Fault Refusal) (f : Fmt) (q q2 : Nat → Lane) :
    Prop :=
  ∃ x m, o = .next (vaFire v (x, m) (s.afterRead src)) ∧ x.tag = f ∧ x.unt = false ∧
    ∀ i, i < 1024 → lane x.lanes i = q i ∧ lane m i = q2 i

/-- A trigger of va`v` of a class, where it may fire, lands `h` of the elements of .a and .b in every element of .q, with the
operating format as tag, and all false in .q2. -/
def State.vaElem (s : State) (g : BitVec 4) (src : BitVec 10) (v : Nat) (i : Instr) (cls : Fmt → Bool) (d : Fmt) (useB : Bool)
    (h : Fmt → Nat → Nat → Nat) : Prop :=
  s.vaReady g src v cls d useB = true →
    let a := s.cx.aV (3 + v)
    let b := s.cx.bV (3 + v)
    let f := opFmt d useB a b
    ∃ x, exec i s = .next (vaFire v (x, []) (s.afterRead src)) ∧ x.tag = f ∧ x.unt = false ∧
      ∀ n, n < 1024 → ∀ k, k < perLane f →
        elem f (lane x.lanes n) k = h f (elem f (lane a.lanes n) k) (elem f (lane b.lanes n) k)

/-- A compare of va`v` of a class, where it may fire, lands 1 in the lanes all of whose elements compare and 0 in the others,
and the complement in .q2 (R82). -/
def State.vaCompares (s : State) (g : BitVec 4) (src : BitVec 10) (v : Nat) (i : Instr) (cls : Fmt → Bool) (d : Fmt)
    (h : Fmt → Nat → Nat → Bool) : Prop :=
  s.vaReady g src v cls d true = true →
    let a := s.cx.aV (3 + v)
    let b := s.cx.bV (3 + v)
    let f := opFmt d true a b
    let all (n : Nat) := decide (∀ k, k < perLane f → h f (elem f (lane a.lanes n) k) (elem f (lane b.lanes n) k) = true)
    s.vaLands src v (exec i s) .mask (fun n => if all n then 1 else 0) (fun n => if all n then 0 else 1)

/-- A three-operand trigger of va`v`, where it may fire and its third register lies in the allocation with the operating
format as tag (R76, R84), lands `h` of the three elements in every element of .q. -/
def State.vaThree (s : State) (g : BitVec 4) (src : BitVec 10) (k : BitVec 3) (v : Nat) (i : Instr) (cls : Fmt → Bool) (d : Fmt)
    (h : Fmt → Nat → Nat → Nat → Nat) : Prop :=
  let a := s.cx.aV (3 + v)
  let b := s.cx.bV (3 + v)
  let c := s.cx.vreg (s.cx.vbase + k.toNat)
  let f := opFmt d true a b
  s.vaReady g src v cls d true = true → k.toNat < s.cx.vcount → s.cx.vbase + k.toNat < 32 → c.tag = f →
    ∃ x, exec i s = .next (vaFire v (x, []) (s.afterRead src)) ∧ x.tag = f ∧ x.unt = false ∧
      ∀ n, n < 1024 → ∀ e, e < perLane f → elem f (lane x.lanes n) e =
        h f (elem f (lane a.lanes n) e) (elem f (lane b.lanes n) e) (elem f (lane c.lanes n) e)

/-- Element j of row r of a vector read in a format (R41). -/
def rowElem (f : Fmt) (m : NMap Lane) (r j : Nat) : Nat := elem f (lane m (64 * r + j / perLane f)) (j % perLane f)

/-- A trigger of xch lands in xch.q at +lat, lane (r, c) given by `h`, with the tag of .a, RAW for a broadcast (R86). -/
def State.xchDoes (s : State) (src : BitVec 10) (i : Instr) (lat : Nat) (h : Nat → Nat → Lane) : Prop :=
  ∃ x, exec i s = .next (s.lands src lat 0x08C (.v x)) ∧ x.tag = (if (s.cx.aV 6).unt then .raw else (s.cx.aV 6).tag) ∧
    x.unt = false ∧ ∀ r c, r < 16 → c < 64 → lane x.lanes (64 * r + c) = h r c

/-- A trigger of red lands in red.q at +lat, lane (r, c) given by `h`, with the accumulation format as tag (R88, R89). -/
def State.redDoes (s : State) (src : BitVec 10) (i : Instr) (lat : Nat) (h : Nat → Nat → Nat) : Prop :=
  ∃ x, exec i s = .next (s.lands src lat 0x08E (.v x)) ∧ x.tag = accFmt (redIn (s.cx.aV 7)) ∧ x.unt = false ∧
    ∀ r c, r < 16 → c < 64 → lane x.lanes (64 * r + c) = BitVec.ofNat 32 (h r c)

/-- A trigger of sfn, where it may issue and sfn.a is of class F, lands f of every element in sfn.q at +lat (R93, R94). -/
def State.sfnDoes (s : State) (g : BitVec 4) (src : BitVec 10) (i : Instr) (f : Sf) (sat : Bool) (lat : Nat) : Prop :=
  let a := s.cx.aV 5
  let fm := if a.unt then .fp32 else a.tag
  s.mayIssue g src = true → clsF fm = true →
    ∃ x, exec i s = .next (s.lands src lat 0x08A (.v x)) ∧ x.tag = fm ∧ x.unt = false ∧
      ∀ n, n < 1024 → ∀ k, k < perLane fm →
        elem fm (lane x.lanes n) k = sfnElem f sat fm (elem fm (lane a.lanes n) k) % 2 ^ width fm

/-- `n` bytes from an offset of tile register t lie inside its window (R119, R130). -/
def Ctx.inTile (x : Ctx) (t off n : Nat) : Bool :=
  match x.window t with
  | some w => decide (off + n ≤ w.size)
  | none => false

/-- No command accepted before the group holds a byte of the range (R142). -/
def State.unheld (s : State) (off n : Nat) : Bool := !s.ck.held s.iss.gid off n

/-- ls.a names `size` bytes that the checks of R130 let through, and no pending command holds one of them (R133). -/
def State.lsReady (s : State) (size align : Nat) : Bool :=
  let w := s.cx.aS 8
  fld w 22 42 == 0 && s.cx.inTile (fld w 16 6) (fld w 0 16) size && fld w 0 16 % align == 0 &&
  s.unheld (s.cx.tileAt (fld w 16 6) (fld w 0 16)) size

/-- A command whose completion word stands at `cw` may be accepted: the word lies in a window, fewer than 1,024 commands are
pending, and none of them names the word (R142). -/
def State.cmdReady (s : State) (cw : Nat) : Bool :=
  let l := s.ck.cmds.filter (fun m => m.gid != s.iss.gid)
  s.cx.inWindow cw 8 && decide (l.length < 1024) && l.all (fun m => m.cw != cw)

/-- The register that an item of the snapshot buffer lands in (R135, R223, R329), or the code of its port. -/
def Flight.reg (f : Flight) : Option Nat :=
  match f.item with
  | .berth _ w _ _ => some (fld w 21 7)
  | .claim _ _ recv => some (fld recv 44 6)
  | .result dst _ => some dst
  | _ => none
/-- The register or port and the value that an item brings with it: a berth's bytes (R135), a result (R16). -/
def Flight.gives (f : Flight) : Option (Nat × PVal) :=
  match f.item with
  | .berth _ w (.data bs) _ => some (fld w 21 7, berthValue w bs)
  | .result dst v => some (dst, v)
  | _ => none

/-- The lane whose four bytes stand at an offset of a memory (R131). -/
def laneAt (m : Mem) (off : Nat) : Lane := BitVec.ofNat 32 (Mem.readLE m off 4)

/-- The control word of a berth load keeps R134, and its checks of R135 pass for the address `a`. -/
def State.berthReady (s : State) (a w : Word) : Bool :=
  let size := fld w 12 3
  let reg := fld w 21 7
  fld w 33 31 == 0 && decide (1 ≤ fld w 0 12) && decide (fld w 28 4 ≤ 10) && (fld w 28 4 != 5 || !bit w 32) &&
  (if size = 4 then s.cx.inAlloc reg && decide (0x40 ≤ reg) && decide (reg < 0x60) && decide (fld w 16 5 ≤ 12) && a.toNat % 64 == 0
   else decide (size < 4) && decide (1 ≤ reg) && decide (reg < 0x40) && fld w 16 5 == 0 && a.toNat % 2 ^ size == 0) &&
  decide ((s.cx.snap.filter (fun f => match f.item with | .berth _ _ _ _ => true | _ => false)).length < 16)

/-! ## Pages -/

/-- No entry of the frame tag table stands in `n` bytes of physical memory (R360). -/
def State.tagsApart (s : State) (lo n : Nat) : Prop := ∀ f a, s.tagPlace f = some a → a + 2 ≤ lo ∨ lo + n ≤ a

/-! ## The matrix array and the Weir array -/

/-- The format pairs of R153. -/
def beatPair (af f : Fmt) : Bool :=
  ([Fmt.fp16, .bf16].contains af && [Fmt.fp16, .bf16].contains f) ||
  ([Fmt.e5m2, .e4m3, .int8, .uint8].contains af && [Fmt.e5m2, .e4m3, .int8, .uint8, .kb9].contains f) ||
  (af == .e2m1 && [Fmt.e2m1, .kb6, .kb4].contains f)

/-- A beat with the word `w` on the A buffer of `x` passes every check of R156 and meets no freeze. -/
def State.beatReady (s : State) (x : Ctx) (w : Word) (sparse : Bool) : Bool :=
  let h := x.hptr (fld w 5 2)
  let bay := h / 0x60000
  let f := s.ck.bayFmt bay
  fld w 10 54 == 0 && x.planes.getLsbD (fld w 0 5) && decide (h < 0x600000) && x.bays.getLsbD bay &&
  (x.abUnt || x.abTag != .raw) && (bit w 9 || (s.ck.plane (fld w 0 5)).tag == .fp32) && !x.copyHeld.getLsbD (fld w 0 5) &&
  !s.ck.baySet s.iss.gid bay && (!sparse || x.mdq != []) && beatPair (if x.abUnt then aUnt f else x.abTag) f &&
  decide (h + rowB f ≤ 0x60000 * (bay + 1))

/-- What a beat of the A buffer and queue of `x` leaves (R155, R157, R159, R161, R168): its operands are latched for n + 4; the
pointer it names advances by the row with ADV; the A buffer moves by one slice, or two for a sparse beat, with SH; a sparse
beat pops one metadata entry; each region whose id some sector of the row carries is charged one beat. -/
def State.beatLeaves (t u : State) (x : Ctx) (port : Nat) (w : Word) (sparse : Bool) : Prop :=
  let h := x.hptr (fld w 5 2)
  let f := t.ck.bayFmt (h / 0x60000)
  let n := if sparse then 2 else 1
  u.cx.snap = t.cx.snap ++ [⟨t.nextId, t.cx.lclk + 4, .beat port w x.rowm x.colm (sliceOf x.abuf 0) (sliceOf x.abuf 1)
    (if x.abUnt then aUnt f else x.abTag) (Mem.read t.ck.hold h (rowB f)) f (if sparse then x.mdq.headD 0 else 0)
    (marksHit t.ck.hmarks h (rowB f))⟩] ∧
  (∀ i, u.cx.hptr i = if i = fld w 5 2 ∧ bit w 7 = true then (h + rowB f) % 2 ^ 23 else x.hptr i) ∧
  (∀ k, k < 1024 → lane u.cx.abuf k = if bit w 8 then (if k + 64 * n < 1024 then lane x.abuf (k + 64 * n) else 0) else lane x.abuf k) ∧
  u.cx.abTag = x.abTag ∧ u.cx.abUnt = x.abUnt ∧ u.cx.mdq = (if sparse then x.mdq.drop 1 else x.mdq) ∧
  (∀ g, (∃ i, h / 64 ≤ i ∧ i ≤ (h + rowB f - 1) / 64 ∧ NMap.get 0 t.ck.htags i = g + 1) →
    NMap.get 0 u.beat g = min (NMap.get 0 t.beat g + 1) (2 ^ 64 - 1)) ∧
  (∀ g, (∀ i, h / 64 ≤ i → i ≤ (h + rowB f - 1) / 64 → NMap.get 0 t.ck.htags i ≠ g + 1) → NMap.get 0 u.beat g = NMap.get 0 t.beat g)

/-- The products of cell (i, j) of a beat, in index order (R159, R161). -/
def beatProducts (sparse : Bool) (a0 a1 : NMap Lane) (af : Fmt) (row : List Byte) (f : Fmt) (md : BitVec 1024) (i j : Nat) : List FV :=
  let kd := holdK f
  let a (m : NMap Lane) (l : Nat) : FV := decElem af (elem af (lane m i) l)
  (List.range kd).map (fun k =>
    let l := 4 * (k / 2) + fld md (16 * j + 4 * (k / 2) + 2 * (k % 2)) 2
    (if sparse then (if l < kd then a a0 l else a a1 (l - kd)) else a a0 k).mul (bElem f row j k))

/-- Bit k of the AND that column j of the Weir array resolves, or of the pair of columns j and j + 1, over the leaves of both
halves (R236). -/
def Ctx.leafLeft (x : Ctx) (row : NMap Lane) (j k : Nat) : Prop :=
  if x.chain.getLsbD (j / 2) then
    ∀ i, i < 64 → ∀ d, d < 2 → bit (x.record i (j + d)) 90 = decide (64 ≤ k) → (cell x.thf row (x.record i (j + d))).getLsbD (k % 64) = true
  else ∀ i, i < 64 → (cell x.thf row (x.record i j)).getLsbD k = true

/-- The exit-leaf index of column j is `e` (R236). -/
def Ctx.exitIs (x : Ctx) (row : NMap Lane) (j e : Nat) : Prop :=
  let n := if x.chain.getLsbD (j / 2) then 128 else 64
  if x.chain.getLsbD (j / 2) = true ∧ j % 2 = 1 then e = 0xFE
  else if x.ten.getLsbD j = false then e = 0xFF
  else (e < n ∧ x.leafLeft row j e ∧ ∀ k, k < e → ¬ x.leafLeft row j k) ∨ (e = 0xFF ∧ ∀ k, k < n → ¬ x.leafLeft row j k)

/-! ## The synchronisation unit and the transfer engine -/

/-- The `n` bytes at an offset of a die's Wharf space lie in the window that the launch of the issuing context has there (R194,
R290). -/
def State.inWharf (s : State) (die off n : Nat) : Bool :=
  match s.launchOf s.cx.launchId with
  | some l => decide (4096 * fld l.info (256 + 32 * die) 16 ≤ off) &&
      decide (off + n ≤ 4096 * fld l.info (256 + 32 * die) 16 + 4096 * fld l.info (272 + 32 * die) 16)
  | none => false

/-- An address word keeps check 1 of R197: must-be-zero bits, a scope that exists, and no order at group scope. -/
def addrOk (a : Word) : Bool :=
  fld a 40 24 == 0 && fld a 28 6 == 0 && decide (fld a 36 4 ≤ 10) && (fld a 36 4 != 5 || fld a 34 2 == 0)

/-- syn.a passes the checks of R197 for an operation aligned to `align`. -/
def State.synReady (s : State) (align : Nat) : Bool :=
  let a := s.cx.aS 12
  addrOk a && s.inWharf (fld a 26 2) (fld a 0 26) 8 && fld a 0 26 % align == 0

/-- An operation of the issuing context has left for the Wharf that syn.a names (R191, R198, R199): its reply or acknowledgement
is due at n + 32, and it stands last in the Wharf's log with its operand, the value `e` it compares with and its record. -/
def State.sends (t u : State) (port : Nat) (e : Word) (info : BitVec 256) : Prop :=
  let x := t.cx
  let a := x.aS 12
  u.cx.snap = x.snap ++ [⟨t.nextId, x.lclk + 32, .wharf port a .absent false⟩] ∧
  (u.wharf (fld a 26 2)).inq = (t.wharf (fld a 26 2)).inq ++
    [⟨t.nextId + 1, t.iss.c, t.nextId, port, a, x.bS 12, e, x.age, none, info, x.task.getD ⟨0, 0⟩, x.spid⟩] ∧
  (∀ d, d ≠ fld a 26 2 → u.wharf d = t.wharf d) ∧ u.cx.age = x.age + 1 ∧ u.mem = t.mem ∧ u.cores = t.cores

/-- The record of syn.arm keeps R208: its must-be-zero fields, a kind and an operation that exist, and the addresses it names. -/
def State.armOk (s : State) (a : Word) (r : BitVec 256) : Bool :=
  let t : Word := BitVec.ofNat 64 (fld r 128 64)
  fld r 38 26 == 0 && fld r 4 4 == 0 && decide (fld r 0 4 ≤ 3) &&
  (if fld r 0 4 = 0 then [0, 2, 3, 4, 5, 6, 7, 8, 9].contains (fld r 8 4) else fld r 8 4 == 0) &&
  (fld r 0 4 == 3 || (addrOk t && s.inWharf (fld t 26 2) (fld t 0 26) 8 && fld t 0 26 % 8 == 0)) &&
  s.inWharf (fld a 26 2) (fld r 12 26) 8 && fld r 12 26 % 8 == 0

/-- A position word keeps R14: its context exists. -/
def posFits (p : Nat) : Bool := decide (p % 16 < 12) && decide (p / 16 % 4 = 0)

/-- A route or source word keeps check 1 of R221 and R223. -/
def routeOk (a : Word) : Bool :=
  fld a 56 8 == 0 && fld a 48 3 == 0 && fld a 13 19 == 0 && posFits (fld a 0 13) &&
  (!bit a 55 || (decide (fld a 51 4 ≤ 10) && fld a 51 4 != 5))

/-- An engine command has been accepted (R139, R142): it stands in a queue of its context or in none, is pending on the core,
and eng.q lands its completion word's offset at n + 1. -/
def State.accepts (t : State) (queue : Option Bool) (kind : QKind) (ord : Bool) (scope : Nat) (k : Cmd) : State :=
  let x := t.cx
  let t1 := match queue with
    | none => t
    | some true => t.setCx { x with loadQ := x.loadQ ++ [QEnt.mk kind t.nextId x.age ord scope], age := x.age + 1 }
    | some false => t.setCx { x with storeQ := x.storeQ ++ [QEnt.mk kind t.nextId x.age ord scope], age := x.age + 1 }
  let t2 := { (t1.setCk { t1.ck with cmds := t1.ck.cmds ++ [k] }) with nextId := t.nextId + 1 }
  t2.landS 1 0x09A (BitVec.ofNat 64 k.cw)

end Sys2Proof.Machine
end

