-- ==== Sys2Proof/Certificates/Slice0/Obligations.lean ====
section
/-! DEFINITION. The statements about the model for the provers. A docstring names the rules of the spec that a statement
formalises; where a clause rests on a choice of the model, it names the log entry. -/

open Sys2Proof Sys2Proof.Machine

/-! ## Encoding -/

/-- Words written out bit by bit, GUARD, SOURCE, DEST (R25, with the port codes of R29 to R33), decode to the instructions
they stand for, one or more per family; and the SOURCE codes that R29 and R31 mark illegal, the DEST codes that R32 marks illegal,
those from 0x3A0 up, and the codes in a unit's range that no chapter defines as a trigger port (R33), decode to no instruction. -/
def Obligations.DecodeWords : Prop :=
  (decodeSlot 0b000000000000000000000000#24 = .ok .nop ∧
  decodeSlot 0b000100000001010010000000#24 = .ok (.move 1 5 0x080) ∧
  decodeSlot 0b100011111111110101000000#24 = .ok (.iaAdd 8 0x3FF 1) ∧
  decodeSlot 0b000000110001100110010010#24 = .ok (.sfCvtw 0 0x0C6 2) ∧
  decodeSlot 0b000000010000000111110101#24 = .ok (.va0Fma 0 0x040 5) ∧
  decodeSlot 0b000000010000001001111110#24 = .ok (.va1Sel 0 0x040 6) ∧
  decodeSlot 0b111100000000001010001001#24 = .ok (.sfnExp2S 15 0) ∧
  decodeSlot 0b000000000000001010100011#24 = .ok (.xchPermr 0 0 3) ∧
  decodeSlot 0b000000000000001010110010#24 = .ok (.redCsumPs 0 0 2) ∧
  decodeSlot 0b000000000000001011001101#24 = .ok (.lsVst 0 0) ∧
  decodeSlot 0b000000000000001011100111#24 = .ok (.strBindf 0 0 7) ∧
  decodeSlot 0b000000000000001011110100#24 = .ok (.mxSacc 0 0) ∧
  decodeSlot 0b000000000000001100000011#24 = .ok (.wrLeaf 0 0) ∧
  decodeSlot 0b000000000000001100100100#24 = .ok (.synCas 0 0 4) ∧
  decodeSlot 0b000000000000001101001001#24 = .ok (.engTcvt 0 0 1) ∧
  decodeSlot 0b000000000000001101101001#24 = .ok (.ctlLoop 0 0 1) ∧
  decodeSlot 0b000000000000001110000101#24 = .ok (.ctlFence 0 0 5)) ∧
  (∀ w : BitVec 24,
    let n := (slotSource w).toNat
    let d := (slotDest w).toNat
    ((0x07C ≤ n ∧ n ≤ 0x07F) ∨ n ∈ [0x085, 0x08B, 0x08D, 0x08F, 0x091, 0x092, 0x093, 0x095, 0x099, 0x09B] ∨
      (0x09D ≤ n ∧ n ≤ 0x0BF) ∨ (0x0C8 ≤ n ∧ n ≤ 0x1FF) ∨
      d = 0x060 ∨ (0x074 ≤ d ∧ d ≤ 0x077) ∨ (0x07C ≤ d ∧ d ≤ 0x07F) ∨ d = 0x08B ∨ d = 0x08F ∨
      (0x09E ≤ d ∧ d ≤ 0x0FF) ∨ 0x3A0 ≤ d ∨
      (∃ o, (d = 0x100 + o ∨ d = 0x140 + o) ∧ ((0x14 ≤ o ∧ o ≤ 0x17) ∨ (0x1C ≤ o ∧ o ≤ 0x1F) ∨ (0x29 ≤ o ∧ o ≤ 0x2F) ∨
        (0x36 ≤ o ∧ o ≤ 0x3F))) ∨
      (∃ o, (d = 0x1C0 + o ∨ d = 0x220 + o) ∧ ((0x0C ≤ o ∧ o ≤ 0x0F) ∨ o = 0x1F ∨ (0x24 ≤ o ∧ o ≤ 0x27))) ∨
      (∃ p ∈ [(0x185, 0x187), (0x18C, 0x18F), (0x1B2, 0x1BF), (0x28C, 0x28F), (0x29A, 0x29F), (0x2BE, 0x2BF), (0x2C7, 0x2C7),
          (0x2CE, 0x2CF), (0x2D1, 0x2DF), (0x2EC, 0x2EF), (0x2F5, 0x2F5), (0x2FD, 0x2FF), (0x304, 0x30F), (0x32E, 0x32F),
          (0x333, 0x337), (0x339, 0x33F), (0x344, 0x347), (0x353, 0x357), (0x35D, 0x35F), (0x36B, 0x36B), (0x36F, 0x36F),
          (0x374, 0x37F), (0x38B, 0x38F), (0x391, 0x39F)], p.1 ≤ d ∧ d ≤ p.2)) →
    ∃ e, decodeSlot w = .error e)

/-- Every well-formed instruction of the table that has a slot encodes, and its word decodes to it, whatever its guard,
source and other operands (R25, R29 to R33). -/
def Obligations.DecodeEncode : Prop :=
  ∀ i : Instr, WellFormed i = true → (fieldsOf i).isSome = true → ∃ w, encode i = some w ∧ decodeSlot w = .ok i ∧
    decodeTableWord 24 w.toNat = some i

/-- Every 24-bit slot that decodes is the encoding of exactly the instruction it decodes to, which is well formed: no two
words have one meaning and no bit of a word is dropped (R25, R29 to R33). -/
def Obligations.EncodeDecode : Prop :=
  ∀ (w : BitVec 24) (i : Instr), decodeSlot w = .ok i → WellFormed i = true ∧ encode i = some w

/-! ## One step -/

/-- A device with power meets its next event: the step is that event's meaning on the state without it. A device without power
does nothing of its own accord and loses every event but POWER_ON_RESET (log 4, the model's choice: R366 and R367 give such a
device no effect but the reset). -/
def Obligations.StepRunsEvent : Prop :=
  (∀ (s : State) (e : Instr) (l : List Instr), s.powered = true → s.inbox = e :: l → step s = exec e { s with inbox := l }) ∧
  (∀ s : State, s.powered = false →
    (s.inbox = [] → step s = .fault .poweredOff) ∧
    (∀ l, s.inbox = .powerOnReset :: l → step s = exec .powerOnReset { s with inbox := l }) ∧
    (∀ e l, e ≠ .powerOnReset → s.inbox = e :: l → step s = .next { s with inbox := l }))

/-- A step issues a group: where its moves, run in the order of R15 on the state after the landings of step 1, meet no check, nor
do its triggers on the latches as the group is written (R37, log 47), the group is closed (R15 step 5); the context holds the
width for one group more, or gives it up where its task has ended or trapped; from the 1,024th group of a run on, the contexts that
could issue then are noted (R304); and the turn is the next core's (log 3). -/
def Obligations.StepRunsGroup : Prop :=
  ∀ (s : State) (c : Nat) (l : List GMove) (pc : Word) (slot : Nat), s.issues c l pc slot = true →
    let s1 := (landAll s c).frame c l pc slot
    let r := runMoves runSlot (written runSlot l s1).cx (moveOrder l) s1 []
    r.2 = [] → (∀ k ∈ asWritten runSlot l s1, k = none) →
    step s = .next (r.1.afterGroup s c (s.ctx c).ckptNext)

/-- A step runs the decoded instruction: where the group at the program counter is one slot, and the slot decodes to i, the
step is exec of i on the state after the landings, in the frame of its group, and then the group is closed and the selector moves
on (R304). -/
def Obligations.StepRunsDecoded : Prop :=
  ∀ (s t : State) (c : Nat) (m : GMove) (pc : Word) (slot : Nat) (i : Instr), s.issues c [m] pc slot = true →
    decodeSlot m.word = .ok i → exec i (((landAll s c).frame c [m] pc slot).atMove 0 m false) = .next t →
    t.iss.stop = none → step s = .next (t.afterGroup s c (s.ctx c).ckptNext)

/-- A trap raised at issue of a group takes effect before any move of that group (R17): whatever moves the group holds, the
context that traps has every register, latch, port, stream and clock as before, a berth load whose stored fault waits to land is
to be reissued (R137, R138), no byte of any memory has changed, physical, compressed, tile SRAM, Hold, or a lock-keeper's, and no
other context has. -/
def Obligations.GroupTrapTakesNothing : Prop :=
  ∀ (s t : State) (c : Nat) (l : List GMove) (pc : Word) (slot : Nat),
    issueGroup runSlot s c l pc slot = (.trapped, t) →
    t.mem = s.mem ∧ t.tier = s.tier ∧ t.cores = s.cores ∧ t.keepers = s.keepers ∧ t.wharfs = s.wharfs ∧ t.flits = s.flits ∧
    (∀ j, j ≠ c → t.ctx j = s.ctx j) ∧
    ∃ rec, t.ctx c = { (s.ctx c).parked with stat := .trapped, trec := rec, frozenAt := none, frozenSend := none, frz := none }

/-- Closing a group: the logical clock becomes n + 1 (R15), one issued group is charged to the budget (R288), a checkpoint
group notes its cycle (R319), every busy window of a vector unit is one cycle shorter and gone at 0 (R9, R77), and the next
group's queue entries are younger than this one's (R169). Of the context only the streams that the group binds (R35) and the
planes that its eng.wait lets go (R164) change besides; every register, latch, port, mask and partial sum stands, and nothing
outside the context changes. -/
def Obligations.ClosingAGroup : Prop :=
  ∀ (s : State) (c : Nat) (ck : Bool), (s.ctx c).stat = .ready →
    let x := s.ctx c
    ∃ y, closeGroup s c ck = s.setCtx c y ∧
      y = { x with
        lclk := x.lclk + 1, budget := x.budget - 1, ckpt := if ck then x.lclk else x.ckpt, age := s.iss.age0 + 8
        vaBusy := y.vaBusy, fills := y.fills, drains := y.drains, copyHeld := y.copyHeld, copyCw := y.copyCw
        frozenAt := none, frozenSend := none, frz := none } ∧
      (∀ v n, (v, n) ∈ y.vaBusy ↔ 0 < n ∧ (v, n + 1) ∈ x.vaBusy) ∧
      (s.iss.binds = [] → y.fills = x.fills ∧ y.drains = x.drains) ∧
      (s.iss.waited = [] → y.copyHeld = x.copyHeld ∧ y.copyCw = x.copyCw) ∧
      (∀ j, j ≠ c → (closeGroup s c ck).ctx j = s.ctx j)

/-- The canonical form of every memory is an invariant of the step: physical memory, compressed pages, tile SRAM, the Hold
and the lock-keepers' memories list rising addresses and no zero byte (the model's representation, log 9). -/
def Obligations.StepKeepsMemories : Prop :=
  ∀ s t : State, s.memOK = true → step s = .next t → t.memOK = true

/-- Every memory of the device after reset is in canonical form. -/
def Obligations.ResetMemories : Prop := State.reset.memOK = true

/-- The device after reset: powered, no event waiting, nothing launched, every byte of memory zero (R367), every context
free with its registers zero and its tags RAW (R13), the row and column masks all ones (R151), PCAP 2,800 and every other
management register zero (R372; log 5 for what R372 does not list). -/
def Obligations.ResetValues : Prop :=
  State.reset.powered = true ∧ State.reset.inbox = [] ∧ State.reset.launches = [] ∧ State.reset.saved = [] ∧
  State.reset.bootStep = 0 ∧ (∀ a, Mem.get State.reset.mem a = 0) ∧
  (∀ off, State.reset.mreg off = if off = 0x518 then 2800 else 0) ∧
  (∀ c, (State.reset.ctx c).stat = .free ∧ (State.reset.ctx c).task = none ∧
    (∀ i, (State.reset.ctx c).xreg i = 0) ∧ (∀ i, (State.reset.ctx c).vreg i = VVal.zero) ∧ (State.reset.ctx c).p = 0 ∧
    (∀ i, (State.reset.ctx c).mreg i = 0) ∧ (∀ i, (State.reset.ctx c).psum i = ⟨[], .raw⟩) ∧ (State.reset.ctx c).sp = 0 ∧
    (∀ i, (State.reset.ctx c).loopCount i = 0) ∧ (State.reset.ctx c).rowm = 0xFFFFFFFFFFFFFFFF ∧
    (State.reset.ctx c).colm = 0xFFFFFFFFFFFFFFFF) ∧
  (∀ k, (State.reset.core k).cmds = [] ∧ (∀ a, Mem.get (State.reset.core k).tile a = 0) ∧
    (∀ a, Mem.get (State.reset.core k).hold a = 0) ∧ ∀ i, (State.reset.core k).plane i = ⟨[], .fp32, false⟩)

/-! ## Moves -/

/-- A SOURCE code from 0x200 to 0x3FF is a short immediate (R30): its value is bits 8:0 read as two's complement, from −256 to
+255, whatever the state; to a vector register or a V-width operand port it goes as any S-width source does, its low 32 bits
in every lane (R10). -/
def Obligations.ShortImmediate : Prop :=
  ∀ (s : State) (src : BitVec 10), 0x200 ≤ src.toNat →
    ∃ w : Word, s.readSrc src = .s w ∧ w.toInt = (src.setWidth 9).toInt ∧ -256 ≤ w.toInt ∧ w.toInt ≤ 255 ∧
      s.cx.srcWd src = .s ∧ ∀ k unt, k < 1024 → lane ((s.readSrc src).toV unt).lanes k = w.setWidth 32

/-- What each source code yields (R11, R29, R31): registers with x0 reading 0, vector registers with their tags, predicates
with p0 reading 1, mask bits as lanes 1 or 0 with tag MASK, partial-sum rows, the long immediates, the clocks, the loop
counters and the position; and the result ports, each the value that stands in it with its width and tag, which at ls.q is S
after a scalar load and V after a vector load (R34). -/
def Obligations.SourceValues : Prop :=
  ∀ (s : State) (src : BitVec 10),
    let n := src.toNat
    (n = 0 → s.readSrc src = .s 0) ∧
    (0 < n → n < 0x040 → s.readSrc src = .s (NMap.get 0 s.cx.x n)) ∧
    (0x040 ≤ n → n < 0x060 → s.readSrc src = .v (s.cx.vreg (n - 0x040))) ∧
    (n = 0x060 → s.readSrc src = .s 1) ∧
    (0x061 ≤ n → n < 0x068 → s.readSrc src = .s (if s.cx.p.getLsbD (n - 0x060) then 1 else 0)) ∧
    (0x068 ≤ n → n < 0x070 → ∃ v, s.readSrc src = .v v ∧ v.tag = .mask ∧ v.unt = false ∧
      ∀ k, k < 1024 → lane v.lanes k = if (s.cx.mreg (n - 0x068)).getLsbD k then 1 else 0) ∧
    (0x078 ≤ n → n < 0x07C → s.readSrc src = .p (s.cx.psum (n - 0x078)).row (s.cx.psum (n - 0x078)).tag) ∧
    (0x080 ≤ n → n ≤ 0x09C → (∀ w, s.cx.port n = .s w → s.readSrc src = .s w ∧ s.cx.srcWd src = .s) ∧
      ∀ v, s.cx.port n = .v v → s.readSrc src = .v v ∧ s.cx.srcWd src = .v) ∧
    (n = 0x0C0 → s.readSrc src = .s s.cx.lclk) ∧
    (n = 0x0C1 → s.readSrc src = .s (((s.cx.lclk - s.cx.pb).setWidth 32).setWidth 64)) ∧
    (0x0C2 ≤ n → n ≤ 0x0C4 → s.readSrc src = .s ((s.cx.loopCount (n - 0x0C2)).setWidth 64)) ∧
    (n = 0x0C5 → s.readSrc src = .s (coordWord s.iss.c)) ∧
    (n = 0x0C6 → s.readSrc src = .s (s.iss.l0.getD 0)) ∧
    (n = 0x0C7 → s.readSrc src = .s (s.iss.l1.getD 0))

/-- A move whose guard is true, whose source can be read and whose destination can be written completes: the source is
read, with the effects of the read, and its value goes to the destination (R15, R32); the empty move changes nothing (R25).
What it leaves at its destination (R10, R11, R32, R34), read back as that register reads: x0 discards; a scalar register takes
the value; a vector register takes value and tag, a scalar as a broadcast of its low 32 bits with tag RAW, a partial-sum row in
every row; a predicate takes bit 0; a mask takes bit 0 of each lane, of a partial-sum row in every row; a partial-sum latch takes
row and tag; an operand latch takes the value in its port's width, a V-width one a partial-sum row in every row with its tag. -/
def Obligations.MoveWrites : Prop :=
  (∀ s : State, exec .nop s = .next s) ∧
  ∀ (s : State) (g : BitVec 4) (src dst : BitVec 10), s.mayIssue g src = true → s.dstReady src dst = true →
    let t := (s.afterRead src).writeDst dst (s.readSrc src)
    exec (.move g src dst) s = .next t ∧
    let n := dst.toNat
    let v := s.readSrc src
    (n = 0 → t = s.afterRead src) ∧
    (0 < n → n < 0x040 → ∀ w, v = .s w → t.cx.xreg n = w) ∧
    (0x040 ≤ n → n < 0x060 → (t.cx.vreg (n - 0x040)).unt = false ∧
      (∀ w, v = .s w → (t.cx.vreg (n - 0x040)).tag = .raw ∧ ∀ k, k < 1024 → lane (t.cx.vreg (n - 0x040)).lanes k = w.setWidth 32) ∧
      (∀ x, v = .v x → (t.cx.vreg (n - 0x040)).tag = x.tag ∧ (t.cx.vreg (n - 0x040)).lanes = x.lanes) ∧
      (∀ row tag, v = .p row tag → (t.cx.vreg (n - 0x040)).tag = tag ∧
        ∀ k, k < 1024 → lane (t.cx.vreg (n - 0x040)).lanes k = lane row (k % 64))) ∧
    (0x061 ≤ n → n < 0x068 → ∀ w, v = .s w → t.cx.p.getLsbD (n - 0x060) = w.getLsbD 0 ∧
      ∀ j, j ≠ n - 0x060 → t.cx.p.getLsbD j = s.cx.p.getLsbD j) ∧
    (0x068 ≤ n → n < 0x070 → ∀ k, k < 1024 →
      (∀ w, v = .s w → (t.cx.mreg (n - 0x068)).getLsbD k = w.getLsbD 0) ∧
      (∀ x, v = .v x → (t.cx.mreg (n - 0x068)).getLsbD k = (lane x.lanes k).getLsbD 0) ∧
      (∀ row tag, v = .p row tag → (t.cx.mreg (n - 0x068)).getLsbD k = (lane row (k % 64)).getLsbD 0)) ∧
    (0x078 ≤ n → n < 0x07C → (∀ w, v = .s w → (t.cx.psum (n - 0x078)).tag = .raw ∧
        ∀ k, k < 64 → lane (t.cx.psum (n - 0x078)).row k = w.setWidth 32) ∧
      (∀ row tag, v = .p row tag → t.cx.psum (n - 0x078) = ⟨row, tag⟩)) ∧
    (0x080 ≤ n → n % 2 = 0 → ∀ w, v = .s w → dstWd dst = some .s → t.cx.aS ((n - 0x080) / 2) = w) ∧
    (0x080 ≤ n → n % 2 = 1 → ∀ w, v = .s w → dstWd dst = some .s → t.cx.bS ((n - 0x080) / 2) = w) ∧
    (0x080 ≤ n → n % 2 = 0 → ∀ x, v = .v x → dstWd dst = some .v → t.cx.aV ((n - 0x080) / 2) = x) ∧
    (0x080 ≤ n → n % 2 = 1 → ∀ x, v = .v x → dstWd dst = some .v → t.cx.bV ((n - 0x080) / 2) = x) ∧
    (0x080 ≤ n → n % 2 = 0 → ∀ w, v = .s w → dstWd dst = some .v → t.cx.aV ((n - 0x080) / 2) = bcast w true) ∧
    (0x080 ≤ n → n % 2 = 1 → ∀ w, v = .s w → dstWd dst = some .v → t.cx.bV ((n - 0x080) / 2) = bcast w true) ∧
    (∀ row tag, v = .p row tag →
      let every (y : VVal) := y.tag = tag ∧ y.unt = false ∧ ∀ k, k < 1024 → lane y.lanes k = lane row (k % 64)
      (0x080 ≤ n → n % 2 = 0 → dstWd dst = some .v → every (t.cx.aV ((n - 0x080) / 2))) ∧
      (0x080 ≤ n → n % 2 = 1 → dstWd dst = some .v → every (t.cx.bV ((n - 0x080) / 2))) ∧
      (n = 0x091 → every (t.cx.bV 8) ∧ t.cx.lsBV = true)) ∧
    (n = 0x091 → (∀ w, v = .s w → t.cx.bS 8 = w ∧ t.cx.lsBV = false) ∧ (∀ x, v = .v x → t.cx.bV 8 = x ∧ t.cx.lsBV = true))

/-- A plain move changes no byte of physical memory, no other context, nothing of a launch but its verdict and its first fault,
and of its own context only the stream it reads and its destination: every other register, predicate, mask, partial sum, latch
and stream stands, and every other part of the context. Away from the drain streams it changes no core and no tile tag (R12, R15,
R17). What a trap taken in its place changes is counted: the record, the resume point, the halt, and the berth loads with a
stored fault, which are to be reissued (R137, R138). -/
def Obligations.MoveFrame : Prop :=
  ∀ (s t : State) (g : BitVec 4) (src dst : BitVec 10), exec (.move g src dst) s = .next t →
    let d := dst.toNat
    let x := s.cx
    let y := t.cx
    t = { s with
      ctxs := t.ctxs, cores := t.cores, launches := t.launches, notified := t.notified, iss := { s.iss with stop := t.iss.stop } } ∧
    (∀ j, j ≠ s.iss.c → t.ctx j = s.ctx j) ∧ (∀ k, k ≠ s.iss.c / 4 → t.core k = s.core k) ∧
    ((d < 0x070 ∨ 0x074 ≤ d) → t.cores = s.cores ∧ y.ttag = x.ttag) ∧
    (∀ id, ∃ v f, t.launchOf id = (s.launchOf id).map (fun l => { l with verdict := v, fault := f })) ∧
    (t.notified = s.notified ∨ t.notified = s.notified ++ [s.iss.c]) ∧
    (∃ z, (z = x ∨ z = x.parked) ∧ y = { z with
      x := y.x, v := y.v, p := y.p, m := y.m, ps := y.ps, opA := y.opA, opB := y.opB, fills := y.fills, drains := y.drains
      ttag := y.ttag, stat := y.stat, trec := y.trec, pc := y.pc, slot := y.slot, frozenAt := y.frozenAt
      frozenSend := y.frozenSend, frz := y.frz }) ∧
    (∀ i, i ≠ d → NMap.get 0 y.x i = NMap.get 0 x.x i) ∧ (∀ i, 0x040 + i ≠ d → y.vreg i = x.vreg i) ∧
    (∀ i, 0x060 + i ≠ d → y.p.getLsbD i = x.p.getLsbD i) ∧ (∀ i, 0x068 + i ≠ d → y.mreg i = x.mreg i) ∧
    (∀ i, 0x078 + i ≠ d → y.psum i = x.psum i) ∧
    (∀ u v, 0x080 + 2 * u ≠ d → NMap.get v y.opA u = NMap.get v x.opA u) ∧
    (∀ u v, 0x081 + 2 * u ≠ d → NMap.get v y.opB u = NMap.get v x.opB u) ∧
    (∀ i, 0x070 + i ≠ src.toNat → y.fill i = x.fill i) ∧ (∀ i, 0x070 + i ≠ d → y.drain i = x.drain i)

/-- A move whose guard is false has no effect, whatever its unit (R15): it reads no source, advances no stream and fires no
trigger; only the checks of R38 that its encoding, its allocation and its tags carry can stop it (R37). -/
def Obligations.FalseGuardNoEffect : Prop :=
  ∀ (i : Instr) (g : BitVec 4) (src d : BitVec 10) (s t : State), fieldsOf i = some (g, src, d) → s.guardOn g = false →
    exec i s = .next t → t = s ∨ ∃ k : Stop, k.stage = 6 ∧ k.kind ≠ .freeze ∧ k.kind ≠ .noSlot ∧ k.kind ≠ .noRoom ∧ t = s.halt k

/-! ## Integer units -/

/-- The adders of ia0 and ia1 (R57, R58), with carry, borrow and clamping, as whole numbers, at +1. The products, the
selections and the comparisons of ia0 and ia1 (R57, R58): products of 128 bits at +3, the rest at +1, a comparison's
complement in .q2. -/
def Obligations.IntegerArithmetic : Prop :=
  (∀ (s : State) (g : BitVec 4) (src : BitVec 10) (u : BitVec 1), s.mayIssue g src = true →
    let a := s.cx.aS u.toNat
    let b := s.cx.bS u.toNat
    (∃ q q2, exec (.iaAdd g src u) s = .next (s.iaLands src u 1 q q2) ∧ q2.toNat * 2 ^ 64 + q.toNat = a.toNat + b.toNat) ∧
    (∃ q q2, exec (.iaSub g src u) s = .next (s.iaLands src u 1 q q2) ∧ q.toNat + b.toNat = a.toNat + q2.toNat * 2 ^ 64 ∧
      q2 = if a.toNat < b.toNat then 1 else 0) ∧
    (∃ q, exec (.iaAddw g src u) s = .next (s.iaLands src u 1 q 0) ∧ q = (a.setWidth 32 + b.setWidth 32).signExtend 64) ∧
    (∃ q, exec (.iaSubw g src u) s = .next (s.iaLands src u 1 q 0) ∧ q = (a.setWidth 32 - b.setWidth 32).signExtend 64) ∧
    (∀ k : BitVec 2, ∃ q, exec (.iaLea g src u k) s = .next (s.iaLands src u 1 q 0) ∧
      q.toNat = (a.toNat + b.toNat * 2 ^ k.toNat) % 2 ^ 64) ∧
    (∃ q q2, exec (.iaAddsat g src u) s = .next (s.iaLands src u 1 q q2) ∧
      q.toInt = max (-(2 ^ 63)) (min (2 ^ 63 - 1) (a.toInt + b.toInt)) ∧ q2 = if q.toInt = a.toInt + b.toInt then 0 else 1) ∧
    (∃ q q2, exec (.iaSubsat g src u) s = .next (s.iaLands src u 1 q q2) ∧
      q.toInt = max (-(2 ^ 63)) (min (2 ^ 63 - 1) (a.toInt - b.toInt)) ∧ q2 = if q.toInt = a.toInt - b.toInt then 0 else 1)) ∧
  (∀ (s : State) (g : BitVec 4) (src : BitVec 10) (u : BitVec 1), s.mayIssue g src = true →
    let a := s.cx.aS u.toNat
    let b := s.cx.bS u.toNat
    let cmp (p : Prop) [Decidable p] := s.iaLands src u 1 (if p then 1 else 0) (if p then 0 else 1)
    (∃ q q2, exec (.iaMul g src u) s = .next (s.iaLands src u 3 q q2) ∧ q2.toInt * 2 ^ 64 + q.toNat = a.toInt * b.toInt) ∧
    (∃ q q2, exec (.iaMulu g src u) s = .next (s.iaLands src u 3 q q2) ∧ q2.toNat * 2 ^ 64 + q.toNat = a.toNat * b.toNat) ∧
    (∃ q q2, exec (.iaMulsu g src u) s = .next (s.iaLands src u 3 q q2) ∧ q2.toInt * 2 ^ 64 + q.toNat = a.toInt * b.toNat) ∧
    (∃ q, exec (.iaMulw g src u) s = .next (s.iaLands src u 3 q 0) ∧ q = (a.setWidth 32 * b.setWidth 32).signExtend 64) ∧
    (∃ q, exec (.iaMin g src u) s = .next (s.iaLands src u 1 q 0) ∧ q.toInt = min a.toInt b.toInt) ∧
    (∃ q, exec (.iaMax g src u) s = .next (s.iaLands src u 1 q 0) ∧ q.toInt = max a.toInt b.toInt) ∧
    (∃ q, exec (.iaMinu g src u) s = .next (s.iaLands src u 1 q 0) ∧ q.toNat = min a.toNat b.toNat) ∧
    (∃ q, exec (.iaMaxu g src u) s = .next (s.iaLands src u 1 q 0) ∧ q.toNat = max a.toNat b.toNat) ∧
    exec (.iaEq g src u) s = .next (cmp (a = b)) ∧
    exec (.iaLt g src u) s = .next (cmp (a.toInt < b.toInt)) ∧
    exec (.iaLtu g src u) s = .next (cmp (a.toNat < b.toNat)) ∧
    exec (.iaTst g src u) s = .next (cmp (a &&& b ≠ 0)))

/-- The logic, the shifts and the bit and field operations of ia0 and ia1 (R57, R58), bit by bit, with the shift amount in
b[5:0], at +1 and zero in .q2. -/
def Obligations.IntegerLogic : Prop :=
  (∀ (s : State) (g : BitVec 4) (src : BitVec 10) (u : BitVec 1), s.mayIssue g src = true →
    let a := s.cx.aS u.toNat
    let b := s.cx.bS u.toNat
    let n := b.toNat % 64
    (∃ q, exec (.iaAnd g src u) s = .next (s.iaLands src u 1 q 0) ∧ ∀ i, q.getLsbD i = (a.getLsbD i && b.getLsbD i)) ∧
    (∃ q, exec (.iaOr g src u) s = .next (s.iaLands src u 1 q 0) ∧ ∀ i, q.getLsbD i = (a.getLsbD i || b.getLsbD i)) ∧
    (∃ q, exec (.iaXor g src u) s = .next (s.iaLands src u 1 q 0) ∧ ∀ i, q.getLsbD i = (a.getLsbD i ^^ b.getLsbD i)) ∧
    (∃ q, exec (.iaAndn g src u) s = .next (s.iaLands src u 1 q 0) ∧
      ∀ i, i < 64 → q.getLsbD i = (a.getLsbD i && !b.getLsbD i)) ∧
    (∃ q, exec (.iaSll g src u) s = .next (s.iaLands src u 1 q 0) ∧ q.toNat = a.toNat * 2 ^ n % 2 ^ 64) ∧
    (∃ q, exec (.iaSrl g src u) s = .next (s.iaLands src u 1 q 0) ∧ q.toNat = a.toNat / 2 ^ n) ∧
    (∃ q, exec (.iaSra g src u) s = .next (s.iaLands src u 1 q 0) ∧ q.toInt = a.toInt / 2 ^ n) ∧
    (∃ q, exec (.iaRor g src u) s = .next (s.iaLands src u 1 q 0) ∧ ∀ i, i < 64 → q.getLsbD i = a.getLsbD ((i + n) % 64))) ∧
  (∀ (s : State) (g : BitVec 4) (src : BitVec 10) (u : BitVec 1), s.mayIssue g src = true →
    let a := s.cx.aS u.toNat
    let b := s.cx.bS u.toNat
    let n := b.toNat % 64
    let w := if b.toNat / 256 % 64 = 0 then 64 else b.toNat / 256 % 64
    (∃ q, exec (.iaClz g src u) s = .next (s.iaLands src u 1 q 0) ∧ q.toNat ≤ 64 ∧ a.toNat < 2 ^ (64 - q.toNat) ∧
      (q.toNat < 64 → a.getLsbD (63 - q.toNat) = true)) ∧
    (∃ q, exec (.iaCtz g src u) s = .next (s.iaLands src u 1 q 0) ∧ q.toNat ≤ 64 ∧
      (∀ i, i < q.toNat → a.getLsbD i = false) ∧ (q.toNat < 64 → a.getLsbD q.toNat = true)) ∧
    (∃ q, exec (.iaPopc g src u) s = .next (s.iaLands src u 1 q 0) ∧
      q.toNat = ((List.range 64).filter (fun i => a.getLsbD i)).length) ∧
    (∃ q, exec (.iaBswap g src u) s = .next (s.iaLands src u 1 q 0) ∧
      ∀ i, i < 64 → q.getLsbD i = a.getLsbD (8 * (7 - i / 8) + i % 8)) ∧
    (∃ q, exec (.iaSext g src u) s = .next (s.iaLands src u 1 q 0) ∧ ∀ i, i < 64 → q.getLsbD i = a.getLsbD (min i n)) ∧
    (∃ q, exec (.iaZext g src u) s = .next (s.iaLands src u 1 q 0) ∧ ∀ i, i < 64 → q.getLsbD i = (decide (i ≤ n) && a.getLsbD i)) ∧
    (∃ q, exec (.iaBfxu g src u) s = .next (s.iaLands src u 1 q 0) ∧
      ∀ i, i < 64 → q.getLsbD i = (decide (i < w) && a.getLsbD (n + i))) ∧
    (∃ q, exec (.iaBfxs g src u) s = .next (s.iaLands src u 1 q 0) ∧
      ∀ i, i < 64 → q.getLsbD i = a.getLsbD (n + min i (w - 1))) ∧
    (∃ q, exec (.iaCat g src u) s = .next (s.iaLands src u 1 q 0) ∧ q.toNat = a.toNat % 2 ^ 32 * 2 ^ 32 + b.toNat % 2 ^ 32))

/-! ## Scalar floating point -/

/-- The arithmetic and the comparisons of sf (R59, R60): on the low 32 bits of both latches as FP32, one rounding, the result
at +4 with the high bits zero; a NaN operand gives the canonical NaN, or makes a comparison false. The conversions of sf (R59
to R61): FP32 to INT32 sign-extended, 64-bit integers to FP32, FP32 to and from the 16-bit formats, each under the port's
MOD, at +4. -/
def Obligations.ScalarFloat : Prop :=
  (∀ (s : State) (g : BitVec 4) (src : BitVec 10), s.mayIssue g src = true →
    let a := (s.cx.aS 2).toNat % 2 ^ 32
    let b := (s.cx.bS 2).toNat % 2 ^ 32
    let nan := (decF .fp32 a).isNan || (decF .fp32 b).isNan
    let num (i : Instr) (c : Nat) := ∃ q : Word, exec i s = .next (s.lands src 4 0x084 (.s q)) ∧ q.toNat = c ∧
      (nan = true → q = 0x7FC00000)
    let truth (i : Instr) (p : Bool) := exec i s = .next (s.lands src 4 0x084 (.s (if p then 1 else 0)))
    num (.sfFadd g src) (fadd .fp32 a b % 2 ^ 64) ∧ num (.sfFsub g src) (fsub .fp32 a b % 2 ^ 64) ∧
    num (.sfFmul g src) (fmul .fp32 a b % 2 ^ 64) ∧ num (.sfFmin g src) (fmin .fp32 a b % 2 ^ 64) ∧
    num (.sfFmax g src) (fmax .fp32 a b % 2 ^ 64) ∧
    truth (.sfFeq g src) (!nan && (decF .fp32 a).cmp (decF .fp32 b) == 0) ∧
    truth (.sfFlt g src) (!nan && (decF .fp32 a).cmp (decF .fp32 b) == -1) ∧
    truth (.sfFle g src) (!nan && (decF .fp32 a).cmp (decF .fp32 b) != 1) ∧
    truth (.sfFun g src) nan) ∧
  (∀ (s : State) (g : BitVec 4) (src : BitVec 10), s.mayIssue g src = true →
    let a := s.cx.aS 2
    let x := decF .fp32 (a.toNat % 2 ^ 32)
    (∀ m : BitVec 3, ∃ q : Word, exec (.sfCvtw g src m) s = .next (s.lands src 4 0x084 (.s q)) ∧
      q = (BitVec.ofNat 32 (encI .int32 m.toNat x)).signExtend 64 ∧ (x = .nan → q = 0)) ∧
    (∀ m : BitVec 3, exec (.sfIcvt g src m) s =
      .next (s.lands src 4 0x084 (.s (BitVec.ofNat 64 (encF .fp32 m.toNat (FV.ofInt a.toInt)))))) ∧
    (∀ m : BitVec 3, exec (.sfCvth g src m) s = .next (s.lands src 4 0x084 (.s (BitVec.ofNat 64 (encF .fp16 m.toNat x))))) ∧
    (∀ m : BitVec 3, exec (.sfCvtb g src m) s = .next (s.lands src 4 0x084 (.s (BitVec.ofNat 64 (encF .bf16 m.toNat x))))) ∧
    exec (.sfExth g src) s =
      .next (s.lands src 4 0x084 (.s (BitVec.ofNat 64 (encF .fp32 0 (decF .fp16 (a.toNat % 2 ^ 16)))))) ∧
    exec (.sfExtb g src) s =
      .next (s.lands src 4 0x084 (.s (BitVec.ofNat 64 (encF .fp32 0 (decF .bf16 (a.toNat % 2 ^ 16)))))))

/-- A NaN operand makes the result of every floating-point sum, difference, product, minimum, maximum and fused form the
canonical NaN of the format, and no comparison but fun holds of it (R43, R79, R82, R84). -/
def Obligations.NaNIsCanonical : Prop :=
  ∀ (f : Fmt) (x y u : Nat), clsF f = true →
    ((decF f x).isNan = true ∨ (decF f y).isNan = true →
      fadd f x y = nanCode f ∧ fsub f x y = nanCode f ∧ fmul f x y = nanCode f ∧ fmin f x y = nanCode f ∧
      fmax f x y = nanCode f ∧ (decF f x).feq (decF f y) = false ∧ (decF f x).lt (decF f y) = false ∧
      (decF f x).le (decF f y) = false) ∧
    ((decF f x).isNan = true ∨ (decF f y).isNan = true ∨ (decF f u).isNan = true →
      ∀ np nu, fused np nu f x y u = nanCode f) ∧ (decF f (nanCode f)).isNan = true

/-! ## Vector units -/

/-- The floating-point triggers of va0 and va1 (R75, R77, R79): each element rounded once in the operating format, at +6. The
integer triggers of va0 and va1 (R75, R77, R80): each element in its width, wrapping, clamped or shifted, signed but for
UINT8, at +6. -/
def Obligations.VectorElements : Prop :=
  (∀ (s : State) (g : BitVec 4) (src : BitVec 10),
    (∀ p ∈ [(0, Instr.va0Fadd g src), (1, .va1Fadd g src)], s.vaElem g src p.1 p.2 clsF .fp32 true
      (fun f x y => fadd f x y % 2 ^ width f)) ∧
    (∀ p ∈ [(0, Instr.va0Fsub g src), (1, .va1Fsub g src)], s.vaElem g src p.1 p.2 clsF .fp32 true
      (fun f x y => fsub f x y % 2 ^ width f)) ∧
    (∀ p ∈ [(0, Instr.va0Fmul g src), (1, .va1Fmul g src)], s.vaElem g src p.1 p.2 clsF .fp32 true
      (fun f x y => fmul f x y % 2 ^ width f)) ∧
    (∀ p ∈ [(0, Instr.va0Fmin g src), (1, .va1Fmin g src)], s.vaElem g src p.1 p.2 clsF .fp32 true
      (fun f x y => fmin f x y % 2 ^ width f)) ∧
    (∀ p ∈ [(0, Instr.va0Fmax g src), (1, .va1Fmax g src)], s.vaElem g src p.1 p.2 clsF .fp32 true
      (fun f x y => fmax f x y % 2 ^ width f)) ∧
    (∀ p ∈ [(0, Instr.va0Fabs g src), (1, .va1Fabs g src)], s.vaElem g src p.1 p.2 clsF .fp32 false
      (fun f x _ => if (decF f x).isNan then nanCode f else x % 2 ^ (width f - 1))) ∧
    (∀ p ∈ [(0, Instr.va0Fneg g src), (1, .va1Fneg g src)], s.vaElem g src p.1 p.2 clsF .fp32 false
      (fun f x _ => if (decF f x).isNan then nanCode f else if x < 2 ^ (width f - 1) then x + 2 ^ (width f - 1)
        else x - 2 ^ (width f - 1)))) ∧
  (∀ (s : State) (g : BitVec 4) (src : BitVec 10),
    (∀ p ∈ [(0, Instr.va0Add g src), (1, .va1Add g src)], s.vaElem g src p.1 p.2 clsI .int32 true
      (fun f x y => (x + y) % 2 ^ width f)) ∧
    (∀ p ∈ [(0, Instr.va0Sub g src), (1, .va1Sub g src)], s.vaElem g src p.1 p.2 clsI .int32 true
      (fun f x y => (x + (2 ^ width f - y)) % 2 ^ width f)) ∧
    (∀ p ∈ [(0, Instr.va0Mul g src), (1, .va1Mul g src)], s.vaElem g src p.1 p.2 clsI .int32 true
      (fun f x y => x * y % 2 ^ width f)) ∧
    (∀ p ∈ [(0, Instr.va0Min g src), (1, .va1Min g src)], s.vaElem g src p.1 p.2 clsI .int32 true
      (fun f x y => if ival f x ≤ ival f y then x else y)) ∧
    (∀ p ∈ [(0, Instr.va0Max g src), (1, .va1Max g src)], s.vaElem g src p.1 p.2 clsI .int32 true
      (fun f x y => if ival f x ≤ ival f y then y else x)) ∧
    (∀ p ∈ [(0, Instr.va0Abs g src), (1, .va1Abs g src)], s.vaElem g src p.1 p.2 clsI .int32 false
      (fun f x _ => if ival f x < 0 then 2 ^ width f - x else x)) ∧
    (∀ p ∈ [(0, Instr.va0Addsat g src), (1, .va1Addsat g src)], s.vaElem g src p.1 p.2 clsI .int32 true
      (fun f x y => wrapI (width f) (max (intMin f) (min (intMax f) (ival f x + ival f y))))) ∧
    (∀ p ∈ [(0, Instr.va0Subsat g src), (1, .va1Subsat g src)], s.vaElem g src p.1 p.2 clsI .int32 true
      (fun f x y => wrapI (width f) (max (intMin f) (min (intMax f) (ival f x - ival f y))))) ∧
    (∀ p ∈ [(0, Instr.va0Sll g src), (1, .va1Sll g src)], s.vaElem g src p.1 p.2 clsI .int32 true
      (fun f x y => x * 2 ^ (y % width f) % 2 ^ width f)) ∧
    (∀ p ∈ [(0, Instr.va0Srl g src), (1, .va1Srl g src)], s.vaElem g src p.1 p.2 clsI .int32 true
      (fun f x y => x / 2 ^ (y % width f))) ∧
    (∀ p ∈ [(0, Instr.va0Sra g src), (1, .va1Sra g src)], s.vaElem g src p.1 p.2 clsI .int32 true
      (fun f x y => wrapI (width f) (ival f x / 2 ^ (y % width f)))))

/-- The compares of va0 and va1 (R75, R77, R82): the lane's truth value is the AND of its elements', its complement lands in
.q2. The bitwise triggers, the select and the dot products of va0 and va1 (R77, R81, R83). -/
def Obligations.VectorCompare : Prop :=
  (∀ (s : State) (g : BitVec 4) (src : BitVec 10),
    (∀ p ∈ [(0, Instr.va0Feq g src), (1, .va1Feq g src)], s.vaCompares g src p.1 p.2 clsF .fp32
      (fun f x y => (decF f x).feq (decF f y))) ∧
    (∀ p ∈ [(0, Instr.va0Flt g src), (1, .va1Flt g src)], s.vaCompares g src p.1 p.2 clsF .fp32
      (fun f x y => (decF f x).lt (decF f y))) ∧
    (∀ p ∈ [(0, Instr.va0Fle g src), (1, .va1Fle g src)], s.vaCompares g src p.1 p.2 clsF .fp32
      (fun f x y => (decF f x).le (decF f y))) ∧
    (∀ p ∈ [(0, Instr.va0Fun g src), (1, .va1Fun g src)], s.vaCompares g src p.1 p.2 clsF .fp32
      (fun f x y => (decF f x).isNan || (decF f y).isNan)) ∧
    (∀ p ∈ [(0, Instr.va0Eq g src), (1, .va1Eq g src)], s.vaCompares g src p.1 p.2 clsC .int32
      (fun f x y => ival f x == ival f y)) ∧
    (∀ p ∈ [(0, Instr.va0Lt g src), (1, .va1Lt g src)], s.vaCompares g src p.1 p.2 clsC .int32
      (fun f x y => decide (ival f x < ival f y))) ∧
    (∀ p ∈ [(0, Instr.va0Le g src), (1, .va1Le g src)], s.vaCompares g src p.1 p.2 clsC .int32
      (fun f x y => decide (ival f x ≤ ival f y)))) ∧
  (∀ (s : State) (g : BitVec 4) (src : BitVec 10), ∀ v ∈ [0, 1],
    let a := s.cx.aV (3 + v)
    let b := s.cx.bV (3 + v)
    let x (n : Nat) := lane a.lanes n
    let y (n : Nat) := lane b.lanes n
    let pick (i j : Instr) := if v = 0 then i else j
    (s.vaReady g src v clsA .raw true = true →
      let f := opFmt .raw true a b
      s.vaLands src v (exec (pick (.va0And g src) (.va1And g src)) s) f (fun n => x n &&& y n) (fun _ => 0) ∧
      s.vaLands src v (exec (pick (.va0Or g src) (.va1Or g src)) s) f (fun n => x n ||| y n) (fun _ => 0) ∧
      s.vaLands src v (exec (pick (.va0Xor g src) (.va1Xor g src)) s) f (fun n => x n ^^^ y n) (fun _ => 0) ∧
      s.vaLands src v (exec (pick (.va0Andn g src) (.va1Andn g src)) s) f (fun n => x n &&& ~~~y n) (fun _ => 0) ∧
      ∀ m : BitVec 3, s.vaLands src v (exec (pick (.va0Sel g src m) (.va1Sel g src m)) s) f
        (fun n => if (s.cx.mreg m.toNat).getLsbD n then x n else y n) (fun _ => 0)) ∧
    (s.vaReady g src v clsH .fp16 true = true →
      let f := opFmt .fp16 true a b
      s.vaLands src v (exec (pick (.va0Fdot g src) (.va1Fdot g src)) s) .fp32 (fun n => BitVec.ofNat 32 (encF .fp32 0 (sumFV
        [(decF f (elem f (x n) 0)).mul (decF f (elem f (y n) 0)), (decF f (elem f (x n) 1)).mul (decF f (elem f (y n) 1))])))
        (fun _ => 0)) ∧
    (s.vaReady g src v clsB .int8 true = true →
      let f := opFmt .int8 true a b
      let t (n k : Nat) := ival f (elem f (x n) k) * ival f (elem f (y n) k)
      s.vaLands src v (exec (pick (.va0Idot g src) (.va1Idot g src)) s) .int32
        (fun n => BitVec.ofInt 32 (t n 0 + t n 1 + t n 2 + t n 3)) (fun _ => 0)))

/-- The three-operand triggers of va0 and va1 (R76, R77, R84): one rounding of product and addend, and the clamps. The
conversion of va0 and va1 (R77, R85): with an untagged word in .b and every check of R85 passed, source element j goes to
element PART × 64 × ns + j of its row where the target is no wider, and is taken from PART × 64 × nt + j where it is. What the
conversion to E4M3 makes of the tie at 464 is the model's choice (log 61). -/
def Obligations.VectorFusedAndConvert : Prop :=
  (∀ (s : State) (g : BitVec 4) (src : BitVec 10) (k : BitVec 3),
    (∀ p ∈ [(0, Instr.va0Fma g src k), (1, .va1Fma g src k)], s.vaThree g src k p.1 p.2 clsF .fp32 (fun f x y u =>
      encF f 0 (sumFV [(decF f x).mul (decF f y), decF f u]) % 2 ^ width f)) ∧
    (∀ p ∈ [(0, Instr.va0Fms g src k), (1, .va1Fms g src k)], s.vaThree g src k p.1 p.2 clsF .fp32 (fun f x y u =>
      encF f 0 (sumFV [(decF f x).mul (decF f y), (decF f u).negate]) % 2 ^ width f)) ∧
    (∀ p ∈ [(0, Instr.va0Fnma g src k), (1, .va1Fnma g src k)], s.vaThree g src k p.1 p.2 clsF .fp32 (fun f x y u =>
      encF f 0 (sumFV [((decF f x).mul (decF f y)).negate, decF f u]) % 2 ^ width f)) ∧
    (∀ p ∈ [(0, Instr.va0Fclamp g src k), (1, .va1Fclamp g src k)], s.vaThree g src k p.1 p.2 clsF .fp32 (fun f x y u =>
      fmin f (fmax f x y) u % 2 ^ width f)) ∧
    (∀ p ∈ [(0, Instr.va0Iclamp g src k), (1, .va1Iclamp g src k)], s.vaThree g src k p.1 p.2 clsI .int32 (fun f x y u =>
      wrapI (width f) (min (max (ival f x) (ival f y)) (ival f u))))) ∧
  (∀ (s : State) (g : BitVec 4) (src : BitVec 10) (m : BitVec 3), ∀ p ∈ [(0, Instr.va0Cvt g src m), (1, .va1Cvt g src m)],
    let a := s.cx.aV (3 + p.1)
    let b := s.cx.bV (3 + p.1)
    let sf := if a.unt then .fp32 else a.tag
    let w := (lane b.lanes 0).toNat
    let part := w / 2 ^ 8 % 8
    let tf := Fmt.ofCodeRaw (w % 32)
    let ns := perLane sf
    let nt := perLane tf
    let conv (c : Nat) := encElem tf m.toNat (decElem sf c) % 2 ^ width tf
    s.mayIssue g src = true → s.cx.busy p.1 = false → b.unt = true → cvtFmt sf = true → cvtFmt tf = true →
    w / 2 ^ 11 = 0 → w / 2 ^ 5 % 8 = 0 → part < max ns nt / min ns nt → (sf = .bin8 → isFloat tf = true) →
    ∃ x, exec p.2 s = .next (vaFire p.1 (x, []) (s.afterRead src)) ∧ x.tag = tf ∧ x.unt = false ∧
      (ns ≤ nt → ∀ r, r < 16 → ∀ e, e < 64 * nt → rowElem tf x.lanes r e =
        if part * 64 * ns ≤ e ∧ e < part * 64 * ns + 64 * ns then conv (rowElem sf a.lanes r (e - part * 64 * ns)) else 0) ∧
      (nt < ns → ∀ r, r < 16 → ∀ e, e < 64 * nt → rowElem tf x.lanes r e = conv (rowElem sf a.lanes r (part * 64 * nt + e))))

/-! ## Special functions, exchange, reduction -/

/-- Every trigger of sfn (R93, R94), with its latency. The result at a finite input that R97 does not list (R95): rounded once to the
format where that is BF16 or FP16, and in FP32 for rcp and sqrt; in FP32 else the infinity that rounding gives, or a finite value
within B units of the last place. The FP32 results that R95 leaves open are the free choice of log 1, and the real values are
evaluated as log 6 says; both are the model's. The results at ordinary inputs are those of R93's functions, worked out from their
definitions; where R95 leaves the FP32 result open, every value that it allows. -/
def Obligations.SpecialFunctions : Prop :=
  (∀ (f : Sf) (fm : Fmt) (c m : Nat) (neg : Bool) (e : Int), clsF fm = true → decF fm c = .fin neg m e →
    f.special (decF fm c) = none →
    let y := f.real neg m e
    let huge := encF .fp32 0 y % 2 ^ 31 = 0x7F800000
    (fm ≠ .fp32 ∨ f = .rcp ∨ f = .sqrt → ∀ sat : Bool, sfnElem f sat fm c = encF fm (if sat then 4 else 0) y) ∧
    (fm = .fp32 → huge → sfnElem f false .fp32 c = encF .fp32 0 y) ∧
    ∀ (s : Bool) (k : Nat) (d : Int), fm = .fp32 → ¬ huge → 1 ≤ f.bound → y = .fin s k d →
      ∃ t p q w a b, decF .fp32 (sfnElem f false .fp32 c) = .fin t p q ∧ sumFV [.fin t p q, .fin (!s) k d] = .fin w a b ∧
        FV.le (.fin false a b) (.fin false f.bound (max (d + bitLen k - 1) (-126) - 23)) = true) ∧
  (∀ p ∈ [(Sf.exp2, Fmt.fp16, 0x3800, 0x3DA8), (.exp2, .bf16, 0xBFC0, 0x3EB5), (.exp, .fp16, 0x3C00, 0x4170),
      (.exp, .bf16, 0xC020, 0x3DA8), (.log2, .fp16, 0x4200, 0x3E57), (.log2, .bf16, 0x3F20, 0xBF2E), (.ln, .fp16, 0x4900, 0x409B),
      (.ln, .bf16, 0x3E80, 0xBFB1), (.rcp, .fp16, 0x4200, 0x3555), (.rcp, .bf16, 0xC0E0, 0xBE12), (.rsqrt, .fp16, 0x4000, 0x39A8),
      (.rsqrt, .bf16, 0x4040, 0x3F14), (.sqrt, .fp16, 0x4000, 0x3DA8), (.sqrt, .bf16, 0x40A0, 0x400F),
      (.tanh, .fp16, 0x3800, 0x3765), (.tanh, .bf16, 0xBF80, 0xBF43), (.logistic, .fp16, 0x3C00, 0x39D9),
      (.logistic, .bf16, 0xC040, 0x3D42), (.rcp, .fp32, 0x40400000, 0x3EAAAAAB), (.rcp, .fp32, 0xC1200000, 0xBDCCCCCD),
      (.sqrt, .fp32, 0x40000000, 0x3FB504F3), (.sqrt, .fp32, 0x3DCCCCCD, 0x3EA1E89B)],
    sfnElem p.1 false p.2.1 p.2.2.1 = p.2.2.2) ∧
  (∀ p ∈ [(Sf.exp2, 0x3F000000, 0x3FB504F3, 0x3FB504F4), (.log2, 0x40400000, 0x3FCAE00D, 0x3FCAE00E),
      (.exp, 0x3F800000, 0x402DF853, 0x402DF856), (.ln, 0x41200000, 0x40135D8C, 0x40135D8F),
      (.rsqrt, 0x40000000, 0x3F3504F3, 0x3F3504F4), (.tanh, 0x3F000000, 0x3EEC9A9D, 0x3EEC9AA0),
      (.logistic, 0x3F800000, 0x3F3B26A6, 0x3F3B26A9)],
    p.2.2.1 ≤ sfnElem p.1 false .fp32 p.2.1 ∧ sfnElem p.1 false .fp32 p.2.1 ≤ p.2.2.2) ∧
  ∀ (s : State) (g : BitVec 4) (src : BitVec 10),
    s.sfnDoes g src (.sfnExp2 g src) .exp2 false 6 ∧ s.sfnDoes g src (.sfnLog2 g src) .log2 false 6 ∧
    s.sfnDoes g src (.sfnExp g src) .exp false 8 ∧ s.sfnDoes g src (.sfnLn g src) .ln false 8 ∧
    s.sfnDoes g src (.sfnRcp g src) .rcp false 6 ∧ s.sfnDoes g src (.sfnRsqrt g src) .rsqrt false 6 ∧
    s.sfnDoes g src (.sfnSqrt g src) .sqrt false 8 ∧ s.sfnDoes g src (.sfnTanh g src) .tanh false 10 ∧
    s.sfnDoes g src (.sfnLogistic g src) .logistic false 10 ∧ s.sfnDoes g src (.sfnExp2S g src) .exp2 true 6 ∧
    s.sfnDoes g src (.sfnExpS g src) .exp true 8 ∧ s.sfnDoes g src (.sfnRcpS g src) .rcp true 6

/-- The special values of R97 in every format of class F, whatever the free choice of log 1 is: the results at the infinities,
at the zeros, at NaN and at negative inputs; and R98: a saturating port gives the finite maximum with the sign of the infinity
that the plain one gives, and otherwise the plain one's result. -/
def Obligations.SpecialValues : Prop :=
  ∀ (fm : Fmt) (c : Nat), clsF fm = true →
    let one := encF fm 0 (.fin false 1 0)
    let half := encF fm 0 (.fin false 1 (-1))
    let z (neg : Bool) := if neg then 2 ^ (width fm - 1) else 0
    let inf (neg : Bool) := encF fm 0 (.inf neg)
    let v (f : Sf) := sfnElem f false fm c
    (∀ neg, decF fm c = .inf neg →
      (v .exp2 = if neg then 0 else inf false) ∧ (v .exp = if neg then 0 else inf false) ∧
      (v .log2 = if neg then nanCode fm else inf false) ∧ (v .ln = if neg then nanCode fm else inf false) ∧
      v .rcp = z neg ∧ (v .rsqrt = if neg then nanCode fm else 0) ∧ (v .sqrt = if neg then nanCode fm else inf false) ∧
      v .tanh = z neg + one ∧ (v .logistic = if neg then 0 else one)) ∧
    (∀ neg e, decF fm c = .fin neg 0 e →
      v .exp2 = one ∧ v .exp = one ∧ v .log2 = inf true ∧ v .ln = inf true ∧ v .rcp = inf neg ∧ v .rsqrt = inf neg ∧
      v .sqrt = z neg ∧ v .tanh = z neg ∧ v .logistic = half) ∧
    (decF fm c = .nan → ∀ f sat, sfnElem f sat fm c = nanCode fm) ∧
    (∀ m e, m ≠ 0 → decF fm c = .fin true m e → ∀ f ∈ [Sf.log2, .ln, .sqrt, .rsqrt], v f = nanCode fm) ∧
    (∀ f ∈ [Sf.exp2, .exp, .rcp], (∀ neg, decF fm (v f) = .inf neg → sfnElem f true fm c = z neg + maxCode fm) ∧
      ((∀ neg, decF fm (v f) ≠ .inf neg) → sfnElem f true fm c = v f)) ∧
    maxCode .fp32 = 0x7F7FFFFF ∧ maxCode .bf16 = 0x7F7F ∧ maxCode .fp16 = 0x7BFF

/-- Every trigger of xch (R76, R86), lane by lane with its latency: rotations, shifts with zero fill, exchanges, the
transposition of 16 × 16 blocks, the broadcasts, and the permutes by v(VB + k); the codes 0x29A to 0x29F are no instruction. -/
def Obligations.Exchange : Prop :=
  (∀ w : BitVec 24, 0x29A ≤ (slotDest w).toNat → (slotDest w).toNat ≤ 0x29F → ∃ e, decodeSlot w = .error e) ∧
  ∀ (s : State) (g : BitVec 4) (src : BitVec 10), s.mayIssue g src = true →
    let a (r c : Nat) := lane (s.cx.aV 6).lanes (64 * r + c)
    let b := (s.cx.bS 6).toNat
    s.xchDoes src (.xchRotr g src) 4 (fun r c => a r ((c + (64 - b % 64)) % 64)) ∧
    s.xchDoes src (.xchShfr g src) 4 (fun r c => if b % 128 ≤ c then a r (c - b % 128) else 0) ∧
    s.xchDoes src (.xchXorr g src) 4 (fun r c => a r (c ^^^ b % 64)) ∧
    s.xchDoes src (.xchTr16 g src) 4 (fun r c => a (c % 16) (16 * (c / 16) + r)) ∧
    s.xchDoes src (.xchRotc g src) 2 (fun r c => a ((r + (16 - b % 16)) % 16) c) ∧
    s.xchDoes src (.xchShfc g src) 2 (fun r c => if b % 32 ≤ r then a (r - b % 32) c else 0) ∧
    s.xchDoes src (.xchXorc g src) 2 (fun r c => a (r ^^^ b % 16) c) ∧
    s.xchDoes src (.xchBcrow g src) 2 (fun _ c => a (b % 16) c) ∧
    s.xchDoes src (.xchBccol g src) 2 (fun r _ => a r (b % 64)) ∧
    s.xchDoes src (.xchBclane g src) 2 (fun _ _ => a (b / 256 % 16) (b % 64)) ∧
    ∀ k : BitVec 3, k.toNat < s.cx.vcount → s.cx.vbase + k.toNat < 32 →
      let i (r c : Nat) := (lane (s.cx.vreg (s.cx.vbase + k.toNat)).lanes (64 * r + c)).toNat
      s.xchDoes src (.xchPermr g src k) 4 (fun r c => a r (i r c % 64)) ∧
      s.xchDoes src (.xchPermc g src k) 2 (fun r c => a (i r c % 16) c)

/-- Every trigger of red (R54, R88 to R92): the sum or maximum of a row is the root of the binary tree over its 64 leaves, of a
column over its 16, each node one operation in the accumulation format; the scans fold in ascending position; lanes that m7
excludes enter as the identity; a psN form carries its column roots to the latch, at +5, where each is combined with the column's
old value, or with the identity where the latch has another tag (R91). -/
def Obligations.Reduction : Prop :=
  (∀ (s : State) (g : BitVec 4) (src : BitVec 10), s.mayIssue g src = true → redFmt (redIn (s.cx.aV 7)) = true →
    let f := redIn (s.cx.aV 7)
    let leaf (mx : Bool) (r c : Nat) := if (s.cx.mreg 7).getLsbD (64 * r + c) then redId mx (accFmt f)
      else leafOf mx f (lane (s.cx.aV 7).lanes (64 * r + c))
    let op (mx : Bool) := redOp mx (accFmt f)
    ∀ (node : Bool → Nat → Nat → Nat → Nat) (cnode : Bool → Nat → Nat → Nat → Nat) (scan cscan : Nat → Nat → Nat),
      (∀ mx r i, node mx r 0 i = leaf mx r i) →
      (∀ mx r l i, node mx r (l + 1) i = op mx (node mx r l (2 * i)) (node mx r l (2 * i + 1))) →
      (∀ mx c i, cnode mx c 0 i = leaf mx i c) →
      (∀ mx c l i, cnode mx c (l + 1) i = op mx (cnode mx c l (2 * i)) (cnode mx c l (2 * i + 1))) →
      (∀ r, scan r 0 = leaf false r 0) → (∀ r c, scan r (c + 1) = op false (scan r c) (leaf false r (c + 1))) →
      (∀ c, cscan c 0 = leaf false 0 c) → (∀ c r, cscan c (r + 1) = op false (cscan c r) (leaf false (r + 1) c)) →
      s.redDoes src (.redRsum g src) 8 (fun r _ => node false r 6 0) ∧
      s.redDoes src (.redRmax g src) 8 (fun r _ => node true r 6 0) ∧
      s.redDoes src (.redCsum g src) 5 (fun _ c => cnode false c 4 0) ∧
      s.redDoes src (.redCmax g src) 5 (fun _ c => cnode true c 4 0) ∧
      s.redDoes src (.redRscan g src) 8 (fun r c => scan r c) ∧
      s.redDoes src (.redCscan g src) 5 (fun r c => cscan c r) ∧
      ∀ n : BitVec 2, ∀ p ∈ [(false, Instr.redCsumPs g src n), (true, .redCmaxPs g src n)],
        ∃ roots, exec p.2 s = .next ((s.afterRead src).fly 5 (.psAcc n.toNat p.1 (accFmt f) roots)) ∧
          ∀ c, c < 64 → lane roots c = BitVec.ofNat 32 (cnode p.1 c 4 0)) ∧
  ∀ (s : State) (c fid n : Nat) (d : Word) (mx : Bool) (acc : Fmt) (roots : NMap Lane),
    let t := landItem s c ⟨fid, d, .psAcc n mx acc roots⟩
    let q := (s.ctx c).psum n
    ((t.ctx c).psum n).tag = acc ∧
    (∀ k, k < 64 → lane ((t.ctx c).psum n).row k =
      BitVec.ofNat 32 (redOp mx acc (if q.tag = acc then (lane q.row k).toNat else redId mx acc) (lane roots k).toNat)) ∧
    (∀ i, i ≠ n → (t.ctx c).psum i = (s.ctx c).psum i) ∧ (t.ctx c).x = (s.ctx c).x ∧ (t.ctx c).v = (s.ctx c).v ∧
    (∀ j, j ≠ c → t.ctx j = s.ctx j) ∧ t.cores = s.cores ∧ t.mem = s.mem

/-! ## Tile SRAM, berths and streams -/

/-- An access of ls that passes R130 and meets no held range issues, and performs and lands at +5 (R131, R132). The checks of
R130 come in their order, and then the freeze of R133: a must-be-zero bit is cause 0x01, bytes outside the window cause 0x09, a
misaligned offset cause 0x0C, a KB tag of the register that ls.vld reads cause 0x03 (R40; before the freeze, which is the model's
choice: log 61), a held byte a freeze; the group takes no effect. They come alike whatever stands in ls.b, but for a scalar store:
one that finds a V value there is ILLEGAL_ENCODING of class 2, before every other check (R34). -/
def Obligations.TileAccess : Prop :=
  (∀ (s : State) (g : BitVec 4) (src : BitVec 10), s.mayIssue g src = true →
    let w := s.cx.aS 8
    let at0 := s.cx.tileAt (fld w 16 6) (fld w 0 16)
    let t := s.afterRead src
    (∀ p ∈ [(1, false, Instr.lsLd8u g src), (2, false, .lsLd16u g src), (4, false, .lsLd32u g src), (8, false, .lsLd64 g src),
        (1, true, .lsLd8s g src), (2, true, .lsLd16s g src), (4, true, .lsLd32s g src)],
      s.lsReady p.1 p.1 = true → exec p.2.2 s = .next (t.fly 5 (.lsLoad at0 p.1 p.2.1))) ∧
    (∀ p ∈ [(1, Instr.lsSt8 g src), (2, .lsSt16 g src), (4, .lsSt32 g src), (8, .lsSt64 g src)],
      ∀ v, NMap.get (.s 0) s.cx.opB 8 = .s v → s.lsReady p.1 p.1 = true →
      exec p.2 s = .next (t.fly 5 (.lsStore at0 p.1 v))) ∧
    (s.lsReady 4096 64 = true →
      ((s.cx.ttagOf (fld w 16 6)).isKB = false → exec (.lsVld g src) s = .next (t.fly 5 (.lsVld (fld w 16 6) at0))) ∧
      exec (.lsVst g src) s = .next (t.fly 5 (.lsVst (fld w 16 6) at0 (s.cx.bV 8))))) ∧
  (∀ (s : State) (g : BitVec 4) (src : BitVec 10), s.mayIssue g src = true → s.cx.lsBV = true →
    ∀ i ∈ [Instr.lsSt8 g src, .lsSt16 g src, .lsSt32 g src, .lsSt64 g src], exec i s = .next (s.halt s.cls2)) ∧
  (∀ (s : State) (g : BitVec 4) (src : BitVec 10), s.mayIssue g src = true → s.iss.free = false →
    let w := s.cx.aS 8
    ∀ p ∈ [(1, 1, Instr.lsLd8u g src), (2, 2, .lsLd16u g src), (4, 4, .lsLd32u g src), (8, 8, .lsLd64 g src), (1, 1, .lsLd8s g src),
        (2, 2, .lsLd16s g src), (4, 4, .lsLd32s g src), (1, 1, .lsSt8 g src), (2, 2, .lsSt16 g src), (4, 4, .lsSt32 g src),
        (8, 8, .lsSt64 g src), (4096, 64, .lsVld g src), (4096, 64, .lsVst g src)],
      (p.2.2 ∈ [Instr.lsSt8 g src, .lsSt16 g src, .lsSt32 g src, .lsSt64 g src] → s.cx.lsBV = false) →
      let inside := s.cx.inTile (fld w 16 6) (fld w 0 16) p.1
      (fld w 22 42 ≠ 0 → exec p.2.2 s = .next (s.halt (s.own 0x01))) ∧
      (fld w 22 42 = 0 → inside = false → exec p.2.2 s = .next (s.halt (s.own 0x09))) ∧
      (fld w 22 42 = 0 → inside = true → fld w 0 16 % p.2.1 ≠ 0 → exec p.2.2 s = .next (s.halt (s.own 0x0C))) ∧
      (fld w 22 42 = 0 → inside = true → fld w 0 16 % p.2.1 = 0 →
        (p.2.2 = .lsVld g src → (s.cx.ttagOf (fld w 16 6)).isKB = true → exec p.2.2 s = .next (s.halt (s.own 0x03))) ∧
        ((p.2.2 = .lsVld g src → (s.cx.ttagOf (fld w 16 6)).isKB = false) →
          s.unheld (s.cx.tileAt (fld w 16 6) (fld w 0 16)) p.1 = false → exec p.2.2 s = .next (s.halt (s.freezeAt 8)))))

/-- What ls accesses do when they perform (R131): a store writes its low bytes, little-endian, and no other byte of any
memory; a load that follows it reads them, zero- or sign-extended; a vector store writes 1,024 lanes and sets the tile
register's tag, and a vector load that follows it reads lanes and tag. -/
def Obligations.TileMemory : Prop :=
  ∀ (s : State) (c fid fid' : Nat) (d d' : Word) (a r : Nat),
    (∀ (n : Nat) (w : Word), n ∈ [1, 2, 4, 8] →
      let t := landItem s c ⟨fid, d, .lsStore a n w⟩
      (∀ x, Mem.get (t.core (c / 4)).tile x =
        if a ≤ x ∧ x < a + n then BitVec.ofNat 8 (w.toNat / 256 ^ (x - a)) else Mem.get (s.core (c / 4)).tile x) ∧
      (∀ k, k ≠ c / 4 → t.core k = s.core k) ∧ t.mem = s.mem ∧ t.ctxs = s.ctxs ∧
      ((landItem t c ⟨fid', d', .lsLoad a n false⟩).ctx c).port 0x090 = .s (BitVec.ofNat 64 (w.toNat % 256 ^ n)) ∧
      ((landItem t c ⟨fid', d', .lsLoad a n true⟩).ctx c).port 0x090 = .s ((w.setWidth (8 * n)).signExtend 64)) ∧
    (∀ v : VVal,
      let t := landItem s c ⟨fid, d, .lsVst r a v⟩
      (∀ x, x < a ∨ a + 4096 ≤ x → Mem.get (t.core (c / 4)).tile x = Mem.get (s.core (c / 4)).tile x) ∧
      (∀ i, i < 1024 → laneAt (t.core (c / 4)).tile (a + 4 * i) = lane v.lanes i) ∧
      (∀ k, k ≠ c / 4 → t.core k = s.core k) ∧ t.mem = s.mem ∧ (∀ j, j ≠ c → t.ctx j = s.ctx j) ∧
      ∃ q, ((landItem t c ⟨fid', d', .lsVld r a⟩).ctx c).port 0x090 = .v q ∧ q.tag = (if v.unt then .raw else v.tag) ∧
        q.unt = false ∧ ∀ i, i < 1024 → lane q.lanes i = lane v.lanes i)

/-- A berth load that passes the checks of R135 occupies a berth, enters the load queue and is due at n + OFFSET; when its
reply lands, the register takes the bytes as SIZE, SIGN and FMT say (R134, R135). -/
def Obligations.BerthLoad : Prop :=
  (∀ (s : State) (g : BitVec 4) (src : BitVec 10) (w : Word), s.mayIssue g src = true →
    NMap.get (.s 0) s.cx.opB 8 = .s w → s.berthReady (s.cx.aS 8) w = true →
    let t := s.afterRead src
    exec (.lsBerth g src) s = .next ((t.setCx (t.cx.enqLoad .berth t.nextId (bit w 32) (fld w 28 4))).fly (fld w 0 12)
      (.berth (s.cx.aS 8) w .absent false))) ∧
  (∀ (s : State) (c fid : Nat) (d a w v : Word) (n : Nat) (tmo : Bool), n < 4 → fld w 12 3 = n → 1 ≤ fld w 21 7 → fld w 21 7 < 0x40 →
    let t := landItem s c ⟨fid, d, .berth a w (.data (leBytes (2 ^ n) v.toNat)) tmo⟩
    (t.ctx c).xreg (fld w 21 7) = (if bit w 15 then (v.setWidth (8 * 2 ^ n)).signExtend 64 else (v.setWidth (8 * 2 ^ n)).setWidth 64) ∧
    (∀ i, i ≠ fld w 21 7 → (t.ctx c).xreg i = (s.ctx c).xreg i) ∧ (t.ctx c).v = (s.ctx c).v ∧ t.cores = s.cores ∧ t.mem = s.mem) ∧
  (∀ (s : State) (c fid : Nat) (d a w : Word) (bs : List Byte) (tmo : Bool), fld w 12 3 = 4 → 0x40 ≤ fld w 21 7 → fld w 21 7 < 0x60 →
    let t := landItem s c ⟨fid, d, .berth a w (.data bs) tmo⟩
    ((t.ctx c).vreg (fld w 21 7 - 0x40)).tag = Fmt.ofCodeRaw (fld w 16 5) ∧ ((t.ctx c).vreg (fld w 21 7 - 0x40)).unt = false ∧
    (∀ i, i < 1024 → lane ((t.ctx c).vreg (fld w 21 7 - 0x40)).lanes i = BitVec.ofNat 32 (leAt bs (4 * i) 4)) ∧
    (∀ i, 0x40 + i ≠ fld w 21 7 → (t.ctx c).vreg i = (s.ctx c).vreg i) ∧ (t.ctx c).x = (s.ctx c).x ∧ t.cores = s.cores ∧ t.mem = s.mem)

/-- A stream binding whose descriptor passes R149 binds the walk at position P, and the binding takes its place when the
group closes (R35): the descriptor lies in one window, at a multiple of 32, in no held range; its tile register has a window;
BASE and strides are multiples of 64; a fill names a lane format; no extent is 0, and every row of the walk lies in 0 to
window size − 256. The walk of a bound stream (R148, R150): a read of fN yields the 16 rows of the entry at the position,
with FMT as tag, and the position advances; a write of dN stores the value's rows, the later row of the walk winning, sets
the tile register's tag, advances the position, and touches no other byte. -/
def Obligations.Streams : Prop :=
  (∀ (s : State) (g : BitVec 4) (src : BitVec 10) (w : Window), s.mayIssue g src = true →
    let off := (s.cx.aS 9).toNat
    let d : BitVec 256 := BitVec.ofNat 256 (Mem.readLE s.iss.tile0 off 32)
    let t : Stream := ⟨d, fld (s.cx.bS 9) 0 32⟩
    let rows := t.ext 0 * t.ext 1 * t.ext 2 * t.ext 3
    s.cx.inWindow off 32 = true → off % 32 = 0 → s.unheld off 32 = true → s.cx.window (fld d 0 6) = some w →
    fld d 48 16 % 64 = 0 → (∀ i, i < 4 → fld d (128 + 32 * i) 32 % 64 = 0) → (∀ i, i < 4 → 1 ≤ t.ext i) →
    (∀ j, j < rows → 0 ≤ t.row j ∧ t.row j + 256 ≤ w.size) →
    let u := s.afterRead src
    (1 ≤ fld d 16 5 → fld d 16 5 ≤ 11 → ∀ n : BitVec 3, exec (.strBindf g src n) s =
      .next { u with iss := { u.iss with binds := u.iss.binds ++ [(true, n.toNat, t)] } }) ∧
    (∀ n : BitVec 2, exec (.strBindd g src n) s =
      .next { u with iss := { u.iss with binds := u.iss.binds ++ [(false, n.toNat, t)] } })) ∧
  (∀ (s : State) (ck : Bool) (l : List (Bool × Nat × Stream)) (n : Nat) (t : Stream), s.cx.stat = .ready →
    let u := closeGroup s s.iss.c ck
    (s.iss.binds = l ++ [(true, n, t)] → u.cx.fill n = some t) ∧ (s.iss.binds = l ++ [(false, n, t)] → u.cx.drain n = some t) ∧
    (s.iss.binds = [] → u.cx.fills = s.cx.fills ∧ u.cx.drains = s.cx.drains)) ∧
  (∀ (s : State) (t : Stream) (w : Window), s.cx.window (fld t.desc 0 6) = some w →
    let e (r : Nat) : Nat := ((w.off : Int) + t.row (16 * t.pos + r)).toNat
    (∀ src : BitVec 10, 0x070 ≤ src.toNat → src.toNat < 0x078 → s.cx.fill (src.toNat - 0x070) = some t →
      (∃ v, s.readSrc src = .v v ∧ v.tag = Fmt.ofCodeRaw (fld t.desc 16 5) ∧ v.unt = false ∧
        ∀ r c, r < 16 → c < 64 → lane v.lanes (64 * r + c) = laneAt s.iss.tile0 (e r + 4 * c)) ∧
      (s.afterRead src).cx.fill (src.toNat - 0x070) = some { t with pos := t.pos + 1 } ∧
      (∀ i, i ≠ src.toNat - 0x070 → (s.afterRead src).cx.fill i = s.cx.fill i)) ∧
    (∀ (dst : BitVec 10) (v : VVal), 0x070 ≤ dst.toNat → dst.toNat < 0x074 → s.cx.drain (dst.toNat - 0x070) = some t →
      let u := s.writeDst dst (.v v)
      (∀ r c, r < 16 → c < 64 → (∀ q, r < q → q < 16 → e r + 256 ≤ e q ∨ e q + 256 ≤ e r) →
        laneAt u.ck.tile (e r + 4 * c) = lane v.lanes (64 * r + c)) ∧
      (∀ x, (∀ r, r < 16 → x < e r ∨ e r + 256 ≤ x) → Mem.get u.ck.tile x = Mem.get s.ck.tile x) ∧
      u.cx.ttagOf (fld t.desc 0 6) = (if v.unt then .raw else v.tag) ∧
      u.cx.drain (dst.toNat - 0x070) = some { t with pos := t.pos + 1 } ∧
      (∀ k, k ≠ s.iss.c / 4 → u.core k = s.core k)))

/-! ## The matrix array -/

/-- The triggers that set the array's operands (R158, R162): mx.push takes 16 slices with their tag or the untagged mark,
mx.shift moves them one place, mx.hpset sets a pointer, mx.rmask and mx.cmask take bit 0 of row 0; each changes nothing else. -/
def Obligations.MatrixOperands : Prop :=
  ∀ (s : State) (g : BitVec 4) (src : BitVec 10), s.mayIssue g src = true →
    let a := s.cx.aV 10
    let w := s.cx.bS 10
    let t := s.afterRead src
    (a.unt = true ∨ a.tag ∈ [Fmt.fp16, .bf16, .e5m2, .e4m3, .int8, .uint8, .e2m1] →
      exec (.mxPush g src) s = .next (t.setCx { t.cx with abuf := a.lanes, abTag := a.tag, abUnt := a.unt })) ∧
    (∃ m, exec (.mxShift g src) s = .next (t.setCx { t.cx with abuf := m }) ∧
      ∀ k, k < 1024 → lane m k = if k < 960 then lane t.cx.abuf (k + 64) else 0) ∧
    (fld w 26 38 = 0 → bit w 23 = false → fld w 0 23 % 32 = 0 → exec (.mxHpset g src) s =
      .next (t.setCx { t.cx with hp := NMap.put t.cx.hp (fld w 24 2) (BitVec.ofNat 23 (fld w 0 23)) })) ∧
    (a.unt = true ∨ a.tag = .mask →
      (∃ m : Word, exec (.mxRmask g src) s = .next (t.setCx { t.cx with rowm := m }) ∧ ∀ i, i < 64 → m.getLsbD i = (lane a.lanes i).getLsbD 0) ∧
      (∃ m : Word, exec (.mxCmask g src) s = .next (t.setCx { t.cx with colm := m }) ∧ ∀ i, i < 64 → m.getLsbD i = (lane a.lanes i).getLsbD 0))

/-- A beat of the matrix array that passes R156 fires (R155, R157, R159, R161), and charges the regions of its row (R168);
mx.pacc works on the A buffer as its push leaves it. A beat lands (R53, R159, R161, R167): an enabled cell takes the sum of
its products, and of its prior value unless ZERO is set, rounded once; a masked cell keeps its value; the plane's tag is
FP32; no other plane, core or byte changes. The sign of a zero product of integer elements is the model's choice (log 51). -/
def Obligations.MatrixBeats : Prop :=
  (∀ (s : State) (g : BitVec 4) (src : BitVec 10), s.mayIssue g src = true →
    let a := s.cx.aV 10
    let w := s.cx.bS 10
    let t := s.afterRead src
    let x := { s.cx with abuf := a.lanes, abTag := a.tag, abUnt := a.unt }
    (s.beatReady s.cx w false = true → ∃ u, exec (.mxAcc g src) s = .next u ∧ t.beatLeaves u s.cx 0x2F2 w false) ∧
    (a.unt = true ∨ a.tag ∈ [Fmt.fp16, .bf16, .e5m2, .e4m3, .int8, .uint8, .e2m1] → s.beatReady x w false = true →
      ∃ u, exec (.mxPacc g src) s = .next u ∧ t.beatLeaves u x 0x2F3 w false) ∧
    (s.beatReady s.cx w true = true → ∃ u, exec (.mxSacc g src) s = .next u ∧ t.beatLeaves u s.cx 0x2F4 w true)) ∧
  (∀ (s : State) (c fid port : Nat) (d w rm cm : Word) (a0 a1 : NMap Lane) (af f : Fmt) (row : List Byte) (md : BitVec 1024) (bad : Bool),
    let t := landItem s c ⟨fid, d, .beat port w rm cm a0 a1 af row f md bad⟩
    let p := (s.core (c / 4)).plane (fld w 0 5)
    let q := (t.core (c / 4)).plane (fld w 0 5)
    (∀ i j, i < 64 → j < 64 → lane q.cells (64 * i + j) =
      if rm.getLsbD i && cm.getLsbD j then
        let l := beatProducts (port == 0x2F4) a0 a1 af row f md i j
        BitVec.ofNat 32 (encF .fp32 0 (sumFV (if bit w 9 then l else decF .fp32 (lane p.cells (64 * i + j)).toNat :: l)))
      else lane p.cells (64 * i + j)) ∧
    q.tag = .fp32 ∧ q.taint = (p.taint || bad) ∧ (∀ i, i ≠ fld w 0 5 → (t.core (c / 4)).plane i = (s.core (c / 4)).plane i) ∧
    (∀ k, k ≠ c / 4 → t.core k = s.core k) ∧ (t.core (c / 4)).tile = (s.core (c / 4)).tile ∧ t.mem = s.mem ∧ t.ctxs = s.ctxs)

/-- A drain that passes its checks is due at +4, and writes one plane row into mx.q when it lands: enabled columns converted
under MOD, masked ones as they were, the rest of the row zero (R163). A plane copy and a metadata fill that pass their checks
become pending commands of the core (R142, R161, R164): the copy marks its plane copy-held, the fill promises its entries. -/
def Obligations.MatrixDrain : Prop :=
  ((∀ (s : State) (g : BitVec 4) (src : BitVec 10), s.mayIssue g src = true →
    let w := s.cx.bS 10
    fld w 19 45 = 0 → s.cx.planes.getLsbD (fld w 0 5) = true → 1 ≤ fld w 11 5 → fld w 11 5 ≤ 5 →
    (s.ck.plane (fld w 0 5)).tag = .fp32 → s.cx.copyHeld.getLsbD (fld w 0 5) = false →
    exec (.mxDrain g src) s = .next ((s.afterRead src).fly 4 (.drain w (s.afterRead src).cx.colm false))) ∧
  (∀ (s : State) (c fid : Nat) (d w cm : Word) (v : VVal) (b : Bool), 1 ≤ fld w 11 5 → fld w 11 5 ≤ 5 → (s.ctx c).port 0x094 = .v v →
    let f := Fmt.ofCodeRaw (fld w 11 5)
    let n := perLane f
    let p := (s.core (c / 4)).plane (fld w 0 5)
    let t := landItem s c ⟨fid, d, .drain w cm b⟩
    let old (k : Nat) : Lane := if v.tag = f then lane v.lanes k else 0
    let r := fld w 5 6 % 16
    ∃ q, (t.ctx c).port 0x094 = .v q ∧ q.tag = f ∧
      (∀ k, k < 1024 → k / 64 ≠ r → lane q.lanes k = old k) ∧
      (∀ j, j < 64 → elem f (lane q.lanes (64 * r + j / n)) (j % n) =
        if cm.getLsbD j then encElem f (fld w 16 3) (decF .fp32 (lane p.cells (64 * fld w 5 6 + j)).toNat) % 2 ^ width f
        else elem f (old (64 * r + j / n)) (j % n)) ∧
      (∀ k, 64 / n ≤ k → k < 64 → lane q.lanes (64 * r + k) = 0) ∧ t.cores = s.cores ∧ t.mem = s.mem)) ∧
  (∀ (s : State) (g : BitVec 4) (src : BitVec 10), s.mayIssue g src = true →
    let w := s.cx.bS 10
    let t := s.afterRead src
    let off := 64 * fld w 36 10
    let cw := 8 * fld w 46 18
    (fld w 14 22 = 0 → fld w 5 3 = 0 → s.cx.planes.getLsbD (fld w 0 5) = true → s.cx.inTile (fld w 8 6) off 16384 = true →
      s.cx.copyHeld.getLsbD (fld w 0 5) = false → s.cmdReady cw = true →
      ∀ p ∈ [(0x2FA, Instr.mxAccxld g src), (0x2FB, .mxAccxst g src)], exec p.2 s =
        .next ((t.setCx { t.cx with
          copyHeld := t.cx.copyHeld ||| BitVec.twoPow 32 (fld w 0 5), copyCw := NMap.put t.cx.copyCw (fld w 0 5) cw }).accept
          { t.newCmd p.1 0 w with
            ranges := [(s.cx.tileAt (fld w 8 6) off, 16384)], cw := cw, plane := some (fld w 0 5), nsec := 256 })) ∧
    (fld w 13 23 = 0 → 1 ≤ fld w 6 7 → fld w 6 7 ≤ 64 → s.cx.inTile (fld w 0 6) off (128 * fld w 6 7) = true →
      s.cx.mdq.length + s.cx.mdqPromised + fld w 6 7 ≤ 64 → s.cmdReady cw = true →
      exec (.mxMdq g src) s = .next ((t.setCx { t.cx with mdqPromised := t.cx.mdqPromised + fld w 6 7 }).accept
        { t.newCmd 0x2FC 0 w with
          ranges := [(s.cx.tileAt (fld w 0 6) off, 128 * fld w 6 7)], cw := cw, nsec := 2 * fld w 6 7 })))

/-! ## The Weir array -/

/-- wr.cfg and wr.load that pass their checks (R232, R233): threshold format, chains and enables, with CLR an empty store; a
record row from the Hold in the cells of its array row, its one region id, and the pointer moved on with ADV. A threshold
beat that passes its checks resolves every column at issue, is due at +6, and charges each region id that some row tag holds
(R234 to R236, R240); the indices land in the row it names (R236). -/
def Obligations.WeirBeats : Prop :=
  (∀ (s : State) (g : BitVec 4) (src : BitVec 10), s.mayIssue g src = true →
    let a := s.cx.aV 11
    let w := s.cx.bS 11
    (a.unt = true ∨ a.tag = .mask → fld w 6 26 = 0 → fld w 0 5 ∈ [0x02, 0x0B] →
      ∃ u, exec (.wrCfg g src) s = .next u ∧ u.cx.thf = (if fld w 0 5 = 0x02 then .bf16 else .bin8) ∧
        u.cx.chain.toNat = fld w 32 32 ∧ (∀ j, j < 64 → u.cx.ten.getLsbD j = (lane a.lanes j).getLsbD 0) ∧
        (∀ i j, u.cx.record i j = if bit w 5 then 0 else s.cx.record i j) ∧
        (∀ i, NMap.get 0 u.cx.rtags i = if bit w 5 then 0 else NMap.get 0 s.cx.rtags i) ∧
        u.cx.wtaint = (!bit w 5 && s.cx.wtaint)) ∧
    (let h := (NMap.get 0 s.iss.hp0 (fld w 7 2)).toNat
     let bay := h / 0x60000
     let i := fld w 0 6
     ∀ id, (∀ k, h / 64 ≤ k → k ≤ (h + 1023) / 64 → NMap.get 0 s.ck.htags k = 0 ∨ NMap.get 0 s.ck.htags k = id) →
     (id = 0 ∨ ∃ k, h / 64 ≤ k ∧ k ≤ (h + 1023) / 64 ∧ NMap.get 0 s.ck.htags k = id) →
     fld w 9 55 = 0 → h < 0x600000 → s.cx.bays.getLsbD bay = true → h + 1024 ≤ 0x60000 * (bay + 1) → s.cx.thf ≠ .raw →
     s.ck.baySet s.iss.gid bay = false → s.ck.bayFmt bay = s.cx.thf →
     ∃ u, exec (.wrLoad g src) s = .next u ∧
       (∀ r j, j < 64 → u.cx.record r j = if r = i then BitVec.ofNat 128 (Mem.readLE s.ck.hold (h + 16 * j) 16) else s.cx.record r j) ∧
       NMap.get 0 u.cx.rtags i = id ∧ (∀ r, r ≠ i → NMap.get 0 u.cx.rtags r = NMap.get 0 s.cx.rtags r) ∧
       (∀ p, u.cx.hptr p = if p = fld w 7 2 ∧ bit w 6 = true then (s.cx.hptr p + 1024) % 2 ^ 23 else s.cx.hptr p) ∧
       u.cx.wtaint = (s.cx.wtaint || marksHit s.ck.hmarks h 1024))) ∧
  ((∀ (s : State) (g : BitVec 4) (src : BitVec 10), s.mayIssue g src = true →
    let a := s.cx.aV 11
    let w := s.cx.bS 11
    let t := s.afterRead src
    s.cx.thf ≠ .raw → (a.unt = true ∨ a.tag = s.cx.thf) → fld w 8 56 = 0 →
    ∃ u idx, exec (.wrBeat g src) s = .next u ∧
      u.cx.snap = t.cx.snap ++ [⟨t.nextId, t.cx.lclk + 6, .wbeat (fld w 4 4) idx false false⟩] ∧
      (∀ j, j < 64 → s.cx.exitIs (sliceOf a.lanes (fld w 0 4)) j (lane idx j).toNat) ∧
      (∀ r, (∃ e ∈ s.cx.rtags, e.2 = r + 1) → NMap.get 0 u.beat r = min (NMap.get 0 s.beat r + 1) (2 ^ 64 - 1)) ∧
      (∀ r, (∀ e ∈ s.cx.rtags, e.2 ≠ r + 1) → NMap.get 0 u.beat r = NMap.get 0 s.beat r)) ∧
  (∀ (s : State) (c fid r : Nat) (d : Word) (idx : NMap Lane) (b b' : Bool) (v : VVal), (s.ctx c).port 0x096 = .v v → r < 16 →
    ∃ q, ((landItem s c ⟨fid, d, .wbeat r idx b b'⟩).ctx c).port 0x096 = .v q ∧ q.tag = .int32 ∧
      ∀ k, k < 1024 → lane q.lanes k = if k / 64 = r then lane idx (k % 64) else if v.tag = .int32 then lane v.lanes k else 0))

/-- A leaf gather that passes its checks keeps its indices and is due at +7 (R237): its read finds, for an index below 128, the
entry of that leaf in the tree slot of its column, and 0 for another; the values land in the row it names. -/
def Obligations.WeirLeaf : Prop :=
  (∀ (s : State) (g : BitVec 4) (src : BitVec 10), s.mayIssue g src = true →
    let a := s.cx.aV 11
    let w := s.cx.bS 11
    let idx := sliceOf a.lanes (fld w 0 4)
    let size := if bit w 20 then 128 else 64
    a.unt = true ∨ a.tag = .int32 → fld w 31 33 = 0 → fld w 14 6 = 0 → (s.cx.window (fld w 8 6)).isSome = true →
    (∀ j, j < 64 → (lane idx j).toNat < 128 →
      s.cx.inTile (fld w 8 6) (64 * fld w 21 10 + 4 * (size * j + (lane idx j).toNat)) 4 = true ∧
      s.unheld (s.cx.tileAt (fld w 8 6) (64 * fld w 21 10 + 4 * (size * j + (lane idx j).toNat))) 4 = true) →
    s.cx.ttagOf (fld w 8 6) = .fp32 ∨ s.cx.ttagOf (fld w 8 6) = .int32 →
    exec (.wrLeaf g src) s = .next ((s.afterRead src).fly 7 (.wleaf w idx none))) ∧
  (∀ (s : State) (c : Nat) (w : Word) (idx : NMap Lane),
    (readLeaf s c w idx).2 = (s.ctx c).ttagOf (fld w 8 6) ∧ ∀ j, j < 64 → lane (readLeaf s c w idx).1 j =
      if (lane idx j).toNat < 128 then laneAt (s.core (c / 4)).tile ((s.ctx c).tileAt (fld w 8 6)
        (64 * fld w 21 10 + 4 * ((if bit w 20 then 128 else 64) * j + (lane idx j).toNat))) else 0) ∧
  (∀ (s : State) (c fid : Nat) (d w : Word) (idx m : NMap Lane) (f : Fmt) (v : VVal), (s.ctx c).port 0x097 = .v v →
    ∃ q, ((landItem s c ⟨fid, d, .wleaf w idx (some (m, f))⟩).ctx c).port 0x097 = .v q ∧ q.tag = f ∧
      ∀ k, k < 1024 → lane q.lanes k = if k / 64 = fld w 4 4 then lane m (k % 64) else if v.tag = f then lane v.lanes k else 0)

/-! ## Synchronisation -/

/-- Every Wharf operation with a reply or an acknowledgement, where R197 lets it through: it leaves for the Wharf that its
address word names, and its answer is due at +32 (R196, R198, R200, R204, R205, R209, R210); syn.cas takes the value of x(56
+ N) with it, and syn.fadd, which leaves where the Wharf's reorder buffer has room, freezes the group while it is full (R201, R215). syn.arm reads its record at issue and
leaves with it (R208); syn.cinc leaves with a completion word that is held like a command's, and lands its offset at +1
(R142, R207). -/
def Obligations.WharfOperations : Prop :=
  (∀ (s : State) (g : BitVec 4) (src : BitVec 10), s.mayIssue g src = true →
    let b := s.cx.bS 12
    let t := s.afterRead src
    (s.synReady 8 = true → ∀ p ∈ [(0x310, Instr.synLd g src), (0x311, .synSt g src), (0x312, .synAdd g src), (0x314, .synMin g src),
        (0x315, .synMax g src), (0x316, .synMinu g src), (0x317, .synMaxu g src), (0x318, .synAnd g src), (0x319, .synOr g src),
        (0x31A, .synXor g src), (0x31B, .synSwap g src), (0x328, .synCwait g src), (0x32B, .synCreset g src), (0x32C, .synCresetF g src)],
      ∃ u, exec p.2 s = .next u ∧ t.sends u p.1 0 0) ∧
    (s.synReady 8 = true → ∀ k : BitVec 3,
      ∃ u, exec (.synCas g src k) s = .next u ∧ t.sends u (0x320 + k.toNat) (s.cx.xreg (56 + k.toNat)) 0) ∧
    (s.synReady 8 = true → fld b 48 16 = 0 → (s.wharf (fld (s.cx.aS 12) 26 2)).reorder.length < 1024 →
      ∃ u, exec (.synFadd g src) s = .next u ∧ t.sends u 0x313 0 0) ∧
    (s.synReady 8 = true → fld b 48 16 = 0 → s.iss.free = false → 1024 ≤ (s.wharf (fld (s.cx.aS 12) 26 2)).reorder.length →
      exec (.synFadd g src) s = .next (s.halt ⟨8, 0, s.iss.pos, .noRoom⟩)) ∧
    (s.synReady 32 = true → fld b 48 16 = 0 → ∀ p ∈ [(0x31C, Instr.synArrive g src), (0x31D, .synExpect g src)],
      ∃ u, exec p.2 s = .next u ∧ t.sends u p.1 0 0) ∧
    (s.synReady 32 = true → fld b 9 55 = 0 → ∃ u, exec (.synWait g src) s = .next u ∧ t.sends u 0x31E 0 0) ∧
    (s.synReady 32 = true → fld b 9 23 = 0 → ∃ u, exec (.synTwait g src) s = .next u ∧ t.sends u 0x31F 0 0)) ∧
  (∀ (s : State) (g : BitVec 4) (src : BitVec 10), s.mayIssue g src = true → s.synReady 8 = true →
    let a := s.cx.aS 12
    let b := s.cx.bS 12
    let t := s.afterRead src
    let off := fld b 0 21
    let r : BitVec 256 := BitVec.ofNat 256 (Mem.readLE s.iss.tile0 off 32)
    (fld b 21 43 = 0 → s.cx.inWindow off 32 = true → off % 32 = 0 → s.unheld off 32 = true → s.armOk a r = true →
      ∃ u, exec (.synArm g src) s = .next u ∧ t.sends u 0x32A 0 r) ∧
    (s.cmdReady (8 * fld b 46 18) = true → ∃ u, exec (.synCinc g src) s = .next u ∧
      u.ck.cmds = s.ck.cmds ++ [{ t.newCmd 0x329 a b with cw := 8 * fld b 46 18 }] ∧
      (u.wharf (fld a 26 2)).inq = (s.wharf (fld a 26 2)).inq ++ [⟨t.nextId + 1, s.iss.c, t.nextId + 1, 0x329, a, b, 0, t.cx.age,
        some t.nextId, 0, t.cx.task.getD ⟨0, 0⟩, t.cx.spid⟩] ∧
      u.cx.snap = t.cx.snap ++ [⟨t.nextId + 2, t.cx.lclk + 1, .result 0x098 (.s (BitVec.ofNat 64 (8 * fld b 46 18)))⟩] ∧
      u.cx.age = t.cx.age + 1 ∧ u.mem = s.mem))

/-- Messages and the phase clock (R214, R221, R223, R228): a send that R221 lets through takes a slot of its path with the payload,
the stamp pclk, its source and its destination, and where no port of its route is left it is discarded and its launch aborted; a receive claims the next message of its source for n + OFFSET; syn.pset makes the
next group read pclk = v. -/
def Obligations.Messages : Prop :=
  ∀ (s : State) (g : BitVec 4) (src : BitVec 10) (l : Launch), s.mayIssue g src = true → s.launchOf s.cx.launchId = some l →
    let a := s.cx.aS 12
    let b := s.cx.bS 12
    let t := s.afterRead src
    let x := t.cx
    let port := s.path l (dieOf s.iss.c) (fld a 32 16)
    (routeOk a = true → fld a 32 16 < l.ndev →
      (fld a 32 16 = l.rank ∨ ∃ q ∈ (s.core (ctxOfPos (fld a 0 13) / 4)).grants,
        grantMsg q l.id (fld a 0 11) l.rank (fld (ctxPos s.iss.c) 0 11) = true) →
      (s.flits.filter (fun f => f.port == port && f.core == s.iss.c / 4)).length < l.mslots →
      (port < 24 → s.skid port < 4096) → port ≠ 99 →
      ∃ u f, exec (.synSend g src) s = .next u ∧ u.flits = s.flits ++ [f] ∧ f.port = port ∧ f.core = s.iss.c / 4 ∧ f.c = s.iss.c ∧
        f.msg.payload = b ∧ f.msg.stamp = (x.lclk - x.pb).setWidth 32 ∧ f.msg.sdev.toNat = l.rank ∧ f.msg.src = ctxPos s.iss.c ∧
        f.msg.ddev.toNat = fld a 32 16 ∧ f.msg.dst.toNat = fld a 0 13 ∧ f.msg.rel = bit a 55 ∧ f.msg.launch = s.cx.launchId ∧
        f.gone = (!bit a 55) ∧ f.took = false ∧ u.cx.snap = x.snap ∧ u.mem = s.mem ∧ u.cores = s.cores) ∧
    (routeOk a = true → fld a 32 16 < l.ndev →
      (fld a 32 16 = l.rank ∨ ∃ q ∈ (s.core (ctxOfPos (fld a 0 13) / 4)).grants,
        grantMsg q l.id (fld a 0 11) l.rank (fld (ctxPos s.iss.c) 0 11) = true) → port = 99 →
      ∃ u m, exec (.synSend g src) s = .next u ∧ u.flits = s.flits ∧ u.ctxs = t.ctxs ∧ u.cores = s.cores ∧
        u.launchOf l.id = some m ∧ m.verdict = 2 ∧ 3 ≤ m.stage) ∧
    (routeOk a = true → fld b 50 14 = 0 → 1 ≤ fld b 44 6 → 1 ≤ fld b 32 12 → fld a 32 16 < l.ndev → s.cx.claims < 64 →
      let key := fld a 32 16 * 8192 + fld a 0 13
      let k := NMap.get 0 s.cx.recvd key + 1
      ∃ u, exec (.synRecv g src) s = .next u ∧ NMap.get 0 u.cx.recvd key = k ∧
        (∀ i, i ≠ key → NMap.get 0 u.cx.recvd i = NMap.get 0 s.cx.recvd i) ∧
        u.cx.snap = x.snap ++ [⟨t.nextId, x.lclk + BitVec.ofNat 64 (fld b 32 12), .claim a k b⟩] ∧ u.mem = s.mem ∧ u.cores = s.cores) ∧
    (∃ u, exec (.synPset g src) s = .next u ∧ { u.cx with lclk := u.cx.lclk + 1 }.pclk = b.setWidth 32 ∧ u.cx.snap = x.snap ∧
      u.mem = s.mem ∧ u.cores = s.cores)

/-! ## The transfer engine -/

/-- Tile and Hold transfers and peer transfers that R142, R141 and R270 let through are accepted (R139): a load into the load
queue, a store into the store queue, with its acquire or release mark and its scope. eng.wait on a word that lies in a
window, at a multiple of 8, and that no pending command names, lands the word, as tile SRAM holds it at the start of the
group (log 48), at +1; when the group closes, the planes of the copies that named it are no longer copy-held, and no other
plane is let go (R146, R164). -/
def Obligations.EngineTransfers : Prop :=
  (∀ (s : State) (g : BitVec 4) (src : BitVec 10), s.mayIssue g src = true →
    let a := s.cx.aS 13
    let w := s.cx.bS 13
    let t := s.afterRead src
    let cw := 8 * fld w 46 18
    let n := if fld w 26 10 = 0 then 1024 else fld w 26 10
    let h := if fld w 23 10 = 0 then 1024 else fld w 23 10
    let range := [(s.cx.tileAt (fld w 0 6) (64 * fld w 36 10), 64 * n)]
    (fld w 6 10 = 0 → fld w 21 4 ≤ 10 → (fld w 21 4 ≠ 5 ∨ bit w 25 = false) → s.cx.inTile (fld w 0 6) (64 * fld w 36 10) (64 * n) = true →
      a.toNat % 64 = 0 → s.cmdReady cw = true →
      (fld w 16 5 ≤ 12 → exec (.engTld g src) s = .next (t.accepts (some true) .cmd (bit w 25) (fld w 21 4)
        { t.newCmd 0x340 a w with ranges := range, cw := cw, nsec := n })) ∧
      exec (.engTst g src) s = .next (t.accepts (some false) .cmd (bit w 25) (fld w 21 4)
        { t.newCmd 0x341 a w with ranges := range, cw := cw, nsec := n })) ∧
    (fld w 21 2 = 0 → fld w 4 12 = 0 → s.cx.bays.getLsbD (fld w 0 4) = true → fld w 33 13 + h ≤ 6144 → fld w 16 5 < 16 →
      a.toNat % 64 = 0 → s.cmdReady cw = true →
      exec (.engHld g src) s = .next (t.accepts (some true) .cmd false 0
        { t.newCmd 0x342 a w with bay := some (fld w 0 4), cw := cw, nsec := h })) ∧
    (∀ l, s.launchOf s.cx.launchId = some l → fld a 48 16 < l.ndev → fld a 43 5 = 0 → fld a 21 11 = 0 → fld w 21 5 = 0 →
      fld w 6 10 = 0 → posFits (fld a 32 11) = true → s.cx.inTile (fld w 0 6) (64 * fld w 36 10) (64 * n) = true →
      fld a 0 21 % 64 = 0 → s.cmdReady cw = true →
      exec (.engPeerwr g src) s = .next (t.accepts (some false) .cmd false 0
        { t.newCmd 0x351 a w with ranges := range, cw := cw, nsec := n }) ∧
      (fld w 16 5 ≤ 12 → exec (.engPeerrd g src) s = .next (t.accepts (some true) .cmd false 0
        { t.newCmd 0x352 a w with ranges := range, cw := cw, nsec := n })))) ∧
  (∀ (s : State) (g : BitVec 4) (src : BitVec 10), s.mayIssue g src = true →
    let off := (s.cx.aS 13).toNat
    let t := s.afterRead src
    s.cx.inWindow off 8 = true → off % 8 = 0 → (∀ m ∈ s.ck.cmds, m.gid ≠ s.iss.gid → m.cw ≠ off) →
    ∃ u, exec (.engWait g src) s = .next u ∧
      u.cx.snap = t.cx.snap ++ [⟨t.nextId, t.cx.lclk + 1, .result 0x09A (.s (BitVec.ofNat 64 (Mem.readLE s.iss.tile0 off 8)))⟩] ∧
      u.iss.waited = s.iss.waited ++ [off] ∧ u.cx.copyHeld = s.cx.copyHeld ∧ u.cx.copyCw = s.cx.copyCw ∧
      u.mem = s.mem ∧ u.cores = s.cores) ∧
  (∀ (s : State) (ck : Bool), s.cx.stat = .ready → ∀ p, p < 32 →
    (closeGroup s s.iss.c ck).cx.copyHeld.getLsbD p =
      (s.cx.copyHeld.getLsbD p && !(s.cx.copyCw.any (fun e => e.1 == p && s.iss.waited.contains e.2))))

/-- A near-memory command whose record passes the checks of R274, in the terms of R272 and R273, is accepted: it enters the store
queue as a near-memory entry and is pending with its record (R271, R275). -/
def Obligations.NearMemoryCommands : Prop :=
  ∀ (s : State) (g : BitVec 4) (src : BitVec 10), s.mayIssue g src = true →
    let off := (s.cx.aS 13).toNat
    let w := s.cx.bS 13
    let t := s.afterRead src
    let r : BitVec 1024 := BitVec.ofNat 1024 (Mem.readLE s.iss.tile0 off 64)
    let cw := 8 * fld w 46 18
    fld w 0 46 = 0 → s.cx.inWindow off 64 = true → off % 64 = 0 → s.unheld off 64 = true → s.cmdReady cw = true →
    fld r 224 32 = 0 → fld r 96 32 = 0 → fld r 64 4 = 0 → fld r 0 44 = 0 → 1 ≤ nmCount r →
    ∀ p ∈ [(0x358, Instr.engNmFuse g src), (0x359, .engNmSadd g src), (0x35A, .engNmRed g src), (0x35B, .engNmFill g src),
        (0x35C, .engNmCopy g src)],
      let k := nmKind p.1
      let u := nmUsed k r
      (∀ i, i < 4 → i ∉ u → nmFmt r i = 0 ∧ nmAddr r i = 0) →
      (k = .fuse ∨ k = .sadd ∨ k = .red → fld r 68 2 = 0) → (k = .red ∨ nmOp r = 0) → (k = .fuse ∨ k = .sadd ∨ nmMod r = 0) →
      (k = .fuse ∨ nmC r 2 = 0) → (k = .fuse ∨ k = .fill ∨ nmC r 1 = 0) → (k = .red ∨ k = .copy → nmC r 0 = 0) →
      (∀ i ∈ u, nmFmt r i ∈ (if k = .fill ∨ k = .copy then [0] else if k = .red ∧ i ≠ 1 then [1] else [1, 2, 3])) →
      (∀ i ∈ u, nmBytes k r i ≤ 2 ^ 20 ∧ nmAddr r i % (if k = .red ∧ i = 0 then 8 else 64) = 0) →
      (∀ i ∈ u, ∀ j ∈ u, i < j → nmAddr r i + nmBytes k r i ≤ nmAddr r j ∨ nmAddr r j + nmBytes k r j ≤ nmAddr r i ∨
        (k = .sadd ∧ i = 0 ∧ j = 2 ∧ nmAddr r 0 = nmAddr r 2 ∧ nmFmt r 0 = nmFmt r 2)) →
      exec p.2 s = .next (t.accepts (some false) .nm false 0
        { t.newCmd p.1 (BitVec.ofNat 64 off) w with info := r, cw := cw, nsec := 1 })

/-- A conversion between tile registers, a batch of atomics, a collective and an exchange that pass their checks are accepted
(R147, R211, R252, R261): the command is pending with its ranges, its record and its completion word, whose offset lands at
+1; a collective whose rank table may be read and whose lock-keeper's hart runs joins, with its rank table and itself as the
one rank of its open sequence number, and enters that hart's ring, or waits for it (R242, R244, R252); an exchange joins
likewise (R262). -/
def Obligations.RecordCommands : Prop :=
  ∀ (s : State) (g : BitVec 4) (src : BitVec 10), s.mayIssue g src = true →
    let t := s.afterRead src
    (let a := s.cx.aS 13
     let b := s.cx.bS 13
     let n := fld a 32 16
     let f := s.cx.ttagOf (fld a 0 6)
     let tf := Fmt.ofCodeRaw (fld a 16 5)
     ∀ (m : BitVec 3) (u v : Window), s.cx.window (fld a 0 6) = some u → s.cx.window (fld a 8 6) = some v →
     (u.off + u.size ≤ v.off ∨ v.off + v.size ≤ u.off) → (tf.isKB = true → m.toNat % 4 = 0) → fld a 6 2 = 0 → fld a 14 2 = 0 →
     fld a 21 11 = 0 → fld a 48 16 = 0 → fld b 21 43 = 0 → 1 ≤ n →
     (f.isKB = true ∧ tf ∈ [Fmt.fp32, .bf16, .fp16]) ∨ (f ∈ [Fmt.fp32, .bf16, .fp16] ∧ tf.isKB = true) →
     cvtBytes f n ≤ u.size → cvtBytes tf n ≤ v.size → b.toNat % 8 = 0 → s.cmdReady b.toNat = true →
     exec (.engTcvt g src m) s = .next (t.accepts none .cmd false 0
       { t.newCmd (0x348 + m.toNat) a b with
         ranges := [(u.off, cvtBytes f n), (v.off, cvtBytes tf n)], info := BitVec.ofNat 1024 f.code, cw := b.toNat, nsec := 1 })) ∧
    (let a := s.cx.aS 12
     let b := s.cx.bS 12
     let n := fld a 24 12
     let len := n * (if fld a 20 4 = 10 then 32 else 16)
     fld a 6 14 = 0 → 1 ≤ n → fld a 20 4 ≠ 1 → fld a 20 4 ≤ 10 → s.cx.inTile (fld a 0 6) (64 * fld a 36 10) len = true →
     b.toNat % 64 = 0 → s.cmdReady (8 * fld a 46 18) = true →
     exec (.synBatch g src) s = .next (((t.setCx (t.cx.enqStore .cmd t.nextId false 0)).accept
       { t.newCmd 0x32D a b with
         ranges := [(s.cx.tileAt (fld a 0 6) (64 * fld a 36 10), len)], cw := 8 * fld a 46 18, nsec := n }).landS 1 0x098
       (BitVec.ofNat 64 (8 * fld a 46 18)))) ∧
    (let off := (s.cx.aS 12).toNat
     let d : BitVec 256 := BitVec.ofNat 256 (Mem.readLE s.iss.tile0 off 32)
     let e : BitVec 1024 := d.setWidth 1024
     let n := fld d 192 10 + 1
     let rt := s.cx.tileAt (fld d 222 6) (64 * fld d 228 10)
     let k : Cmd := { t.newCmd 0x338 (BitVec.ofNat 64 off) 0 with
       info := e, cw := 8 * fld d 238 18
       ranges := [(off, 32), (rt, 4 * n), (s.cx.tileAt (fld d 160 6) (64 * fld d 166 10), descSrc e),
         (s.cx.tileAt (fld d 176 6) (64 * fld d 182 10), descDst e)].filter (fun r => r.2 != 0) }
     let t1 := (t.accept k).landS 1 0x098 (BitVec.ofNat 64 k.cw)
     let ranks := rankTable s.ck.tile rt n
     let lk := homeOf (s.iss.c / 4)
     ∀ (l : Launch) (h : Nat), s.cx.inWindow off 32 = true → off % 32 = 0 → s.unheld off 32 = true → descBad d = false →
     (descSrc e = 0 ∨ s.cx.inTile (fld d 160 6) (64 * fld d 166 10) (descSrc e) = true) →
     (descDst e = 0 ∨ s.cx.inTile (fld d 176 6) (64 * fld d 182 10) (descDst e) = true) →
     s.cx.inTile (fld d 222 6) (64 * fld d 228 10) (4 * n) = true → collFmtBad d = false → s.cmdReady (8 * fld d 238 18) = true →
     s.launchOf k.task.launch = some l → l.closedSeq.contains (descSeq e) = false → l.hart = some h →
     t1.tableReady k = true → s.admits (396 + lk) (s.iss.c / 4) k.spid true = true →
     s.seqs.any (fun r => r.isFor l.id 0x338 (descSeq e)) = false →
     let j : Joined := ⟨fld d 202 10, l.rank, (ctxPos s.iss.c).toNat, e, ranks, none⟩
     j.misnamed = false → (NMap.get Hart.init (s.keeper lk).harts h).stopped = false →
     ∃ u, exec (.synColl g src) s = .next u ∧ u.mem = s.mem ∧ u.seqs = s.seqs ++ [⟨l.id, 0x338, descSeq e, [j], none, []⟩] ∧
       u.ck.cmds = (s.ck.cmds ++ [k]).map (fun m => if m.id = k.id then { k with prog := 1, ranks := ranks } else m) ∧
       u.cx.snap = t.cx.snap ++ [⟨t.nextId + 1, t.cx.lclk + 1, .result 0x098 (.s (BitVec.ofNat 64 k.cw))⟩] ∧
       let p := NMap.get Hart.init (s.keeper lk).harts h
       let q := NMap.get Hart.init (u.keeper lk).harts h
       if (p.head - p.tail).toNat < 256 ∧ p.waiting = [] then q.head = p.head + 1 ∧ q.waiting = []
       else q.head = p.head ∧ q.waiting.length = p.waiting.length + 1) ∧
    (let off := (s.cx.aS 13).toNat
     let w := s.cx.bS 13
     let m : BitVec 1024 := BitVec.ofNat 1024 (Mem.readLE s.iss.tile0 off 128)
     let rt := s.cx.tileAt (fld m 48 6) (64 * fld m 54 10)
     let k : Cmd := { t.newCmd 0x350 (BitVec.ofNat 64 off) w with
       info := m, ranges := [(off, 128), (rt, 4 * mapN m)], cw := 8 * fld w 46 18, ranks := rankTable s.iss.tile0 rt (mapN m) }
     ∀ l : Launch, fld w 0 46 = 0 → s.cx.inWindow off 128 = true → off % 64 = 0 → s.unheld off 128 = true → mapBad m = false →
     s.cx.inTile (fld m 48 6) (64 * fld m 54 10) (4 * mapN m) = true →
     (bit m 191 = true → s.inWharf (fld m 154 2) (fld m 128 26) 32 = true) →
     fld m 192 64 % mapW m = 0 → fld m 256 64 % mapW m = 0 → fld m 128 26 % 32 = 0 → s.unheld rt (4 * mapN m) = true →
     s.cmdReady (8 * fld w 46 18) = true → s.launchOf k.task.launch = some l → l.closedAq.contains (mapSeq m) = false →
     s.seqs.any (fun r => r.isFor l.id 0x350 (mapSeq m)) = false →
     let j : Joined := ⟨mapRank m, l.rank, (ctxPos s.iss.c).toNat, m, k.ranks, none⟩
     j.misnamed = false →
     let a := t.accepts (some false) .cmd false 0 k
     ∃ u, exec (.engAq g src) s = .next u ∧ u.cx = a.cx ∧ u.cores = a.cores ∧ u.mem = s.mem ∧
       u.seqs = s.seqs ++ [⟨l.id, 0x350, mapSeq m, [j], none, []⟩])

/-! ## Control -/

/-- The branches, calls and loops (R64, R66, R67, R68): where the next group begins, the link in ctl.q at +1, which loops a
branch leaves, and what a loop's start and end do to the counter, the stage predicate and the program counter; an absolute
target that is no multiple of 32 is cause 0x0C, and the group takes no effect. -/
def Obligations.BranchesAndLoops : Prop :=
  ∀ (s : State) (g : BitVec 4) (src : BitVec 10), s.mayIssue g src = true →
    let a := s.cx.aS 14
    let b := s.cx.bS 14
    let t := s.afterRead src
    let rel : Word := s.iss.bundle + 32 * a
    let goes (u : State) (p : Word) := u.cx.pc = p ∧ u.cx.slot = 0
    let leaves (u : State) (p : Word) := ∀ l, l < 3 → u.cx.loopCount l =
      if (p - s.cx.loopStart l).toNat ≤ 32 * (s.cx.loopLen l - 1) then s.cx.loopCount l else 0
    let links (u : State) := u.cx.snap = t.cx.snap ++ [⟨t.nextId, t.cx.lclk + 1, .result 0x09C (.s s.iss.after)⟩] ∧
      u.cx.lc = s.cx.lc
    (a.toNat % 32 = 0 →
      (∃ u, exec (.ctlJmp g src) s = .next u ∧ goes u a ∧ leaves u a) ∧ ∃ u, exec (.ctlCall g src) s = .next u ∧ goes u a ∧ links u) ∧
    (a.toNat % 32 ≠ 0 → s.iss.free = false → exec (.ctlJmp g src) s = .next (s.halt (s.own 0x0C)) ∧
      exec (.ctlCall g src) s = .next (s.halt (s.own 0x0C))) ∧
    (∃ u, exec (.ctlBr g src) s = .next u ∧ goes u rel ∧ leaves u rel) ∧
    (∃ u, exec (.ctlCallr g src) s = .next u ∧ goes u rel ∧ links u) ∧
    ∀ l : BitVec 2, l ≠ 3 →
      let k := l.toNat
      let n := s.cx.loopCount k
      (∃ u, exec (.ctlLoop g src l) s = .next u ∧ u.cx.loopCount k = a.setWidth 32 ∧ u.cx.loopStart k = s.iss.after ∧
        u.cx.loopLen k = (if b.toNat % 256 = 0 then 256 else b.toNat % 256) ∧ (NMap.get 0 u.cx.ldrain k).toNat = b.toNat / 256 % 256 ∧
        u.cx.sp = (if bit b 16 then 1 else s.cx.sp) ∧
        goes u (if a.setWidth 32 = 0#32 then s.iss.after + BitVec.ofNat 64 (32 * u.cx.loopLen k) else s.iss.after) ∧
        ∀ j, j ≠ k → u.cx.loopCount j = s.cx.loopCount j) ∧
      ∃ u, exec (.ctlLoopend g src l) s = .next u ∧
        u.cx.sp = (s.cx.sp <<< 1) ||| (if n ≠ 0 ∧ (NMap.get 0 s.cx.ldrain k).toNat + 1 < n.toNat then 1 else 0) ∧
        u.cx.loopCount k = (if n = 0 then 0 else n - 1) ∧ (∀ j, j ≠ k → u.cx.loopCount j = s.cx.loopCount j) ∧
        if n.toNat ≤ 1 then u.cx.pc = s.cx.pc ∧ u.cx.slot = s.cx.slot else goes u (s.cx.loopStart k)

/-- System registers, tags, markers and fences (R69, R70, R73, R74, R174, R175, R331): a readable register's value lands in
ctl.q at +1, STAGE and LC0 to LC2 can be written and no other; retag sets the tag and nothing else; a fence holds the next
group at its scope; ifence also discards the fetched bundles; a marker and a fence take one age; a quiesce from another space
than 0 is cause 0x09. -/
def Obligations.ControlState : Prop :=
  ∀ (s : State) (g : BitVec 4) (src : BitVec 10), s.mayIssue g src = true →
    let a := s.cx.aS 14
    let b := s.cx.bS 14
    let t := s.afterRead src
    let n := a.toNat
    (∀ p ∈ [(0, BitVec.ofNat 64 s.cx.taskIx), (1, s.cx.launchId), (3, s.cx.budget.setWidth 64), (4, BitVec.ofNat 64 s.cx.spid),
        (8, s.cx.sp.setWidth 64), (9, (s.cx.loopCount 0).setWidth 64), (10, (s.cx.loopCount 1).setWidth 64),
        (11, (s.cx.loopCount 2).setWidth 64), (0x100, NMap.get 0 s.cx.trec 0), (0x101, NMap.get 0 s.cx.trec 1),
        (0x102, NMap.get 0 s.cx.trec 2), (0x103, NMap.get 0 s.cx.trec 3), (0x104, NMap.get 0 s.cx.trec 4),
        (0x105, NMap.get 0 s.cx.trec 5), (0x106, s.cx.lclk - s.cx.ckpt)],
      n = p.1 → exec (.ctlRdsr g src) s = .next (t.landS 1 0x09C p.2)) ∧
    (∀ l, s.launchOf s.cx.launchId = some l → n = 2 →
      exec (.ctlRdsr g src) s = .next (t.landS 1 0x09C (BitVec.ofNat 64 (l.variant % 4 * 65536 + l.phase % 65536)))) ∧
    (s.iss.free = false → s.sysReg n = none → exec (.ctlRdsr g src) s = .next (s.halt (s.own 1))) ∧
    (8 ≤ n → n ≤ 11 → ∃ u, exec (.ctlWrsr g src) s = .next u ∧ (n = 8 → u.cx.sp = b.setWidth 8 ∧ u.cx.lc = s.cx.lc) ∧
      (9 ≤ n → u.cx.loopCount (n - 9) = b.setWidth 32 ∧ u.cx.sp = s.cx.sp ∧
        ∀ j, j ≠ n - 9 → u.cx.loopCount j = s.cx.loopCount j)) ∧
    (s.iss.free = false → n < 8 ∨ 11 < n → exec (.ctlWrsr g src) s = .next (s.halt (s.own 1))) ∧
    (∀ f, b.toNat < 16 → f = Fmt.ofCodeRaw b.toNat →
      (0x40 ≤ n → n ≤ 0x5F → s.cx.vbase ≤ n - 0x40 → n - 0x40 < s.cx.vbase + s.cx.vcount → f.isKB = false →
        ∃ u, exec (.ctlRetag g src) s = .next u ∧ u.cx.vreg (n - 0x40) = { s.cx.vreg (n - 0x40) with tag := f } ∧
          (∀ i, i ≠ n - 0x40 → u.cx.vreg i = s.cx.vreg i) ∧ u.cores = s.cores) ∧
      (0x78 ≤ n → n ≤ 0x7B → f.isKB = false → ∃ u, exec (.ctlRetag g src) s = .next u ∧
        u.cx.psum (n - 0x78) = ⟨(s.cx.psum (n - 0x78)).row, f⟩ ∧ u.cores = s.cores) ∧
      (256 ≤ n → n < 320 → (s.cx.window (n - 256)).isSome = true → s.cx.scoreboard s.ck s.iss.gid (n - 256) = false →
        ∃ u, exec (.ctlRetag g src) s = .next u ∧ u.cx.ttagOf (n - 256) = f ∧ u.cores = s.cores) ∧
      (512 ≤ n → n < 544 → s.cx.planes.getLsbD (n - 512) = true → f.isKB = false → s.cx.copyHeld.getLsbD (n - 512) = false →
        ∃ u, exec (.ctlRetag g src) s = .next u ∧ u.ck.plane (n - 512) = { s.ck.plane (n - 512) with tag := f } ∧
          u.ck.tile = s.ck.tile)) ∧
    (∀ sc : BitVec 4, sc.toNat ≤ 10 → (sc = 5 → n < 256 ∧ s.isMember n = true) →
      ∃ u, exec (.ctlFence g src sc) s = .next u ∧ u.cx.fence = some (s.cx.age, sc.toNat, none) ∧ u.cx.age = s.cx.age + 1) ∧
    (∃ u, exec (.ctlIfence g src) s = .next u ∧ u.cx.fence = some (s.cx.age, 1, none) ∧ u.cx.ibuf = [] ∧ u.cx.age = s.cx.age + 1) ∧
    (∃ u, exec (.ctlQmark g src) s = .next u ∧ u.cx.age = s.cx.age + 1 ∧ u.cx.fence = s.cx.fence ∧
      (s.cx.drained s.cx.age 7 = false →
        u.cx.loadQ = s.cx.loadQ ++ [⟨.marker, s.nextId, s.cx.age, false, 0⟩] ∧
        u.cx.storeQ = s.cx.storeQ ++ [⟨.marker, s.nextId, s.cx.age, false, 0⟩])) ∧
    (1 ≤ n → n < 4096 → s.cx.spid = 0 → ∃ u, exec (.ctlQuiesce g src) s = .next u ∧ n ∈ u.quiescing ∧
      u.cx.fence = some (s.cx.age, 1, some n)) ∧
    (1 ≤ n → n < 4096 → s.cx.spid ≠ 0 → s.iss.free = false → exec (.ctlQuiesce g src) s = .next (s.halt (s.own 9)))

/-- Taking a trap (R313, R314): the record holds cause, slot, position, resume slot, LAND and AFTER, the resume point, the
bundle, the logical clock and the detail words; the context halts at its resume point; nothing else of it changes but what
holds its group, and a berth load with a stored fault, which is to be reissued (R137, R138); no other context and no memory
changes, and the kernel is notified. A system call and a break trap after their group, with the resume point at the group
that follows (R71). ctl.end ends the task: the context is free, with every register zero, the task stands as ended, and no
byte of physical memory changes (R72). -/
def Obligations.TrapsAndEnd : Prop :=
  (∀ (s : State) (c slot pos rslot : Nat) (cause : BitVec 8) (d0 d1 bundle resume : Word) (land after : Bool),
    pos ≤ 8 → slot < 8 → rslot < 8 →
    let t := takeTrap s c cause d0 d1 land after pos bundle slot resume rslot
    let w := NMap.get 0 (t.ctx c).trec 0
    fld w 0 8 = cause.toNat ∧ fld w 8 3 = slot ∧ fld w 11 3 = min pos 7 ∧ fld w 16 3 = rslot ∧ bit w 19 = land ∧ bit w 20 = after ∧
    NMap.get 0 (t.ctx c).trec 1 = resume ∧ NMap.get 0 (t.ctx c).trec 2 = bundle ∧ NMap.get 0 (t.ctx c).trec 3 = (s.ctx c).lclk ∧
    NMap.get 0 (t.ctx c).trec 4 = d0 ∧ NMap.get 0 (t.ctx c).trec 5 = d1 ∧
    t.ctx c = { (s.ctx c).parked with
      stat := .trapped, trec := (t.ctx c).trec, pc := resume, slot := rslot, frozenAt := none, frozenSend := none, frz := none } ∧
    (∀ j, j ≠ c → t.ctx j = s.ctx j) ∧ t.mem = s.mem ∧ t.cores = s.cores ∧ c ∈ t.notified) ∧
  (∀ (s : State) (g : BitVec 4) (src : BitVec 10), s.mayIssue g src = true → s.iss.slot < 8 → s.cx.slot < 8 →
    let t := s.afterRead src
    let a := s.cx.aS 14
    exec (.ctlSys g src) s = .next (takeTrap t s.iss.c 0x11 a 0 false true s.iss.pos s.iss.bundle s.iss.slot s.cx.pc s.cx.slot) ∧
    (∃ u, exec (.ctlBrk g src) s = .next u ∧
      u = { takeTrap t s.iss.c 0x12 a 0 false true s.iss.pos s.iss.bundle s.iss.slot s.cx.pc s.cx.slot with
        msix := if bit (NMap.get 0 s.mr 0x400) 0 then s.msix ++ [3] else s.msix }) ∧
    exec (.ctlEnd g src) s = .next (endTask t s.iss.c)) ∧
  ∀ (s : State) (c : Nat) (q : TaskRef), (s.ctx c).task = some q →
    let t := endTask s c
    (t.ctx c).stat = .free ∧ (t.ctx c).task = none ∧ (∀ i, (t.ctx c).xreg i = 0) ∧ (t.ctx c).v = [] ∧ (t.ctx c).snap = [] ∧
    (t.ctx c).inlet = [] ∧ (t.ctx c).spid = (s.ctx c).spid ∧ (∀ j, j ≠ c → t.ctx j = s.ctx j) ∧ t.mem = s.mem ∧
    ∀ l, s.launchOf q.launch = some l → ∃ m, t.launchOf q.launch = some m ∧ m.stat q.task = .ended c

/-! ## What a slot leaves alone -/

/-- A trigger of ia, sf, va, sfn, xch or red (R15, R16, R17, R57 to R94) writes no memory and no register: whether it fires, is
held or traps, its results are only in flight, and beside them it advances the stream it reads and starts a vector unit's
busy window; where it traps, the berth loads with a stored fault are to be reissued (R137, R138). A trigger of ls, str, mx, wr, syn,
eng or ctl but ctl.end leaves every general register, predicate, mask and operand latch of every context as it is, and every
vector register and partial-sum latch but for the tag that ctl.retag sets (R69). -/
def Obligations.RegisterUnitsFrame : Prop :=
  (∀ (i : Instr) (g : BitVec 4) (src d : BitVec 10) (s t : State), fieldsOf i = some (g, src, d) → 0x2C0 ≤ d.toNat →
    (∀ g src, i ≠ .ctlEnd g src) → exec i s = .next t → ∀ j,
    let x := s.ctx j
    let y := t.ctx j
    y.x = x.x ∧ y.p = x.p ∧ y.m = x.m ∧ y.opA = x.opA ∧ y.opB = x.opB ∧
    ((∀ g src, i ≠ .ctlRetag g src) → y.v = x.v ∧ y.ps = x.ps) ∧
    (∀ r, (y.vreg r).lanes = (x.vreg r).lanes ∧ (y.psum r).row = (x.psum r).row) ∧
    ∀ r, (j ≠ s.iss.c ∨ r ≠ (s.cx.aS 14).toNat - 0x40) → y.vreg r = x.vreg r) ∧
  ∀ (i : Instr) (g : BitVec 4) (src d : BitVec 10) (s t : State), fieldsOf i = some (g, src, d) → 0x100 ≤ d.toNat →
    d.toNat < 0x2C0 → exec i s = .next t →
    t.mem = s.mem ∧ t.cores = s.cores ∧ t.wharfs = s.wharfs ∧ t.flits = s.flits ∧ t.keepers = s.keepers ∧ t.mr = s.mr ∧
    (∀ j, j ≠ s.iss.c → t.ctx j = s.ctx j) ∧ ∃ l f vb y, (y = s.cx ∨ y = s.cx.parked) ∧ t.cx = { y with
      snap := y.snap ++ l, fills := f, vaBusy := vb, stat := t.cx.stat, trec := t.cx.trec, pc := t.cx.pc, slot := t.cx.slot,
      frozenAt := t.cx.frozenAt, frozenSend := t.cx.frozenSend, frz := t.cx.frz }

/-- No slot but syn.coll changes a byte of physical memory at issue, a syn.send only where no port of its route is left and its
launch's abort is recorded as an event (R228, R350), and none but a move to a drain stream, ctl.end, syn.coll and eng.aq a
byte of tile SRAM or of the Hold: the accesses of ls, str, mx, wr, syn and eng take effect later (R131, R139, R150, R155,
R191). -/
def Obligations.SlotMemoryFrame : Prop :=
  ∀ (i : Instr) (g : BitVec 4) (src d : BitVec 10) (s t : State), fieldsOf i = some (g, src, d) → exec i s = .next t →
    ((∀ g src, i ≠ .synColl g src) → (∀ g src, i ≠ .synSend g src) → t.mem = s.mem) ∧
    (∀ g src l, i = .synSend g src → s.launchOf s.cx.launchId = some l → s.path l (dieOf s.iss.c) (fld (s.cx.aS 12) 32 16) ≠ 99 →
      t.mem = s.mem) ∧
    ((∀ g src, i ≠ .synColl g src) → (∀ g src, i ≠ .engAq g src) → (∀ g src, i ≠ .ctlEnd g src) →
      (d.toNat < 0x070 ∨ 0x074 ≤ d.toNat) → ∀ k a, Mem.get (t.core k).tile a = Mem.get (s.core k).tile a ∧
        Mem.get (t.core k).hold a = Mem.get (s.core k).hold a)

/-! ## Events: what lands and what freezes -/

/-- Landing (R15, R16, R135, R137, R216, R223, R224, R312), whatever else stands in the snapshot buffer, where no freeze behind the
landing holds the group: the items due land at the start of their cycle and leave the buffer, in the order they were fired, and
no item lands before. Of two results at one port the later trigger's remains; a register takes the value of the item fired last
that names it, a berth's bytes or the payload of the message that a claim takes out of its inlet; no other register or port
changes. The berth fired first of those that failed is BERTH's fault, and a claim whose message has another stamp is
TIMESTAMP_MISMATCH where nothing ranked before it traps (R312): both before anything lands. -/
def Obligations.EventsLanding : Prop :=
  ∀ (s : State) (c : Nat), (s.ctx c).runs = true → (s.ctx c).stuck = false →
    let x := s.ctx c
    let l := x.dueItems
    let stay (p : Flight → Bool) := x.snap.filter (fun f => !(p f && decide (f.due.toNat ≤ x.lclk.toNat)))
    l.any x.absentItem = false →
    (landTrap s c = none → (∀ f ∈ l, f.item.timed = false) →
      (∀ e ∈ [(Instr.berthLanding c, Flight.isBerth), (.receiveLanding c, Flight.isClaim)],
        (l.any e.2 = false → exec e.1 s = .next s) ∧
        (l.any e.2 = true → ∃ u X V I, exec e.1 s = .next u ∧ u.mem = s.mem ∧ u.cores = s.cores ∧
          u.ctx c = { x with x := X, v := V, inlet := I, snap := stay (fun f => f.isBerth || f.isClaim) } ∧
          (∀ i, (∀ f ∈ l, f.reg ≠ some i) → (u.ctx c).xreg i = x.xreg i) ∧
          (∀ i, (∀ f ∈ l, f.reg ≠ some (0x40 + i)) → (u.ctx c).vreg i = x.vreg i) ∧
          ∀ pre f post, l = pre ++ f :: post →
            (∀ r v, f.gives = some (r, v) → (∀ g ∈ post, g.reg ≠ some r) →
              (∀ w, v = .s w → 1 ≤ r → r < 0x40 → (u.ctx c).xreg r = w) ∧
              (∀ w, v = .v w → 0x40 ≤ r → r < 0x60 → (u.ctx c).vreg (r - 0x40) = w)) ∧
            (∀ src k recv m, f.item = .claim src k recv → x.claimMsg src k = some m → 1 ≤ fld recv 44 6 →
              (∀ g ∈ pre, ∀ src' recv', g.item = .claim src' k recv' → srcKey src' ≠ srcKey src) →
              (u.ctx c).claimMsg src k = none ∧
              ((∀ g ∈ post, g.reg ≠ some (fld recv 44 6)) → (u.ctx c).xreg (fld recv 44 6) = m.payload)))) ∧
      ((∀ f ∈ l, f.isBerth = true ∨ f.isClaim = true ∨ ∃ dst v, f.item = .result dst v ∧ 0x80 ≤ dst ∧ dst < 0xA0) →
        (∀ f ∈ x.snap, x.leafReads f = false) →
        ∃ u, exec (.resultLanding c) s = .next u ∧ u.mem = s.mem ∧ u.cores = s.cores ∧ (u.ctx c).snap = stay (fun _ => true) ∧
          (l = [] → u.ctx c = x) ∧
          ((∀ f ∈ l, f.isBerth = false ∧ f.isClaim = false) → (u.ctx c).x = x.x ∧ (u.ctx c).v = x.v) ∧
          ∀ dst, 0x80 ≤ dst → dst < 0xA0 →
            ((∀ f ∈ l, ∀ v, f.item ≠ .result dst v) → (u.ctx c).port dst = x.port dst) ∧
            ∀ pre f post v, l = pre ++ f :: post → f.item = .result dst v → (∀ g ∈ post, ∀ w, g.item ≠ .result dst w) →
              (u.ctx c).port dst = v)) ∧
    ∀ pre f post, l = pre ++ f :: post →
      (∀ a w cause addr bs t, f.item = .berth a w (.fault cause addr bs) t → (∀ g ∈ pre, berthTrap g = none) →
        ∃ u, exec (.berthLanding c) s = .next u ∧ (u.ctx c).stat = .trapped ∧ (u.ctx c).cause = cause.toNat ∧
          NMap.get 0 (u.ctx c).trec 4 = addr ∧ (u.ctx c).x = x.x ∧ (u.ctx c).v = x.v ∧ (u.ctx c).pc = x.pc ∧
          (u.ctx c).inlet = x.inlet ∧ u.mem = s.mem ∧ u.cores = s.cores) ∧
      (∀ src recv k m, f.item = .claim src k recv → x.claimMsg src k = some m → m.stamp ≠ recv.setWidth 32 →
        (∀ g ∈ l, berthTrap g = none ∧ drainTrap (s.core (c / 4)) g = none ∧ wbeatTrap x g = none ∧ wharfTrap g = none) →
        (∀ g ∈ pre, claimTrap x g = none) →
        ∃ u, exec (.receiveLanding c) s = .next u ∧ (u.ctx c).stat = .trapped ∧ (u.ctx c).cause = 7 ∧
          (NMap.get 0 (u.ctx c).trec 4).toNat = recv.toNat % 2 ^ 32 + 2 ^ 32 * m.stamp.toNat ∧ (u.ctx c).x = x.x ∧ (u.ctx c).v = x.v ∧
          (u.ctx c).inlet = x.inlet ∧ ((∀ g ∈ x.snap, g.fid = f.fid → g = f) → (u.ctx c).snap = x.parked.snap))

/-- Fetch, replies and time (R65, R73, R136, R138, R217, R288, R319): the bundle that the context waits for arrives with the bytes
of memory, after ctl.ifence once its fence has performed; a berth load performs and its data or fault waits in its berth, to be
reissued where the context stands halted; a freeze of 1,000 ns on an item that is absent, or on a syn.send that finds no slot,
traps with ENDPOINT_TIMEOUT; a group without budget is DEADLINE, and one that comes 8,192 cycles after the last checkpoint is
CHECKPOINT_OVERDUE. -/
def Obligations.EventsFreezing : Prop :=
  ∀ (s : State) (c : Nat),
    let x := s.ctx c
    (∀ (addr : Word) (pa : Nat), x.runs = true → x.form = .need addr → (x.ibuf ≠ [] ∨ s.fenceOpen c = true) → addr.toNat < 2 ^ 52 →
      s.reach (c / 4) x.spid addr.toNat ⟨2, false⟩ = .at pa → s.asleep pa = false →
      ∃ u, exec (.bundleFetch c addr) s = .next u ∧
        (u.ctx c).fetched addr = some (.bundle (BitVec.ofNat 256 (Mem.readLE s.mem pa 32))) ∧
        ∀ a, a ≠ addr → (u.ctx c).fetched a = x.fetched a) ∧
    (∀ (fid : Nat) (d a w : Word) (t : Bool), x.snap.find? (fun f => f.fid == fid) = some ⟨fid, d, .berth a w .absent t⟩ →
      s.entryReady c fid a.toNat (berthSize w) = true →
      (∀ bs, s.berthAnswer (c / 4) x.spid a.toNat (berthSize w) = .data bs → ∃ u, exec (.berthReply c fid) s = .next u ∧
        (u.ctx c).snap.find? (fun f => f.fid == fid) = some ⟨fid, d, .berth a w (.data bs) t⟩) ∧
      (∀ cause addr bs, s.berthAnswer (c / 4) x.spid a.toNat (berthSize w) = .fault cause addr bs →
        ∃ u, exec (.berthReply c fid) s = .next u ∧
          (u.ctx c).snap.find? (fun f => f.fid == fid) =
            some ⟨fid, d, .berth a w (if x.stat = .ready then .fault cause addr bs else .again) t⟩)) ∧
    (∀ f, x.runs = true → x.frozenLong s.wall = true → x.dueItems.find? x.absentEndpoint = some f →
      ∃ u, exec (.endpointTimeout c) s = .next u ∧ (u.ctx c).stat = .trapped ∧ (u.ctx c).cause = 0x0B ∧
        (u.ctx c).x = x.x ∧ (u.ctx c).pc = x.pc ∧ (u.ctx c).slot = x.slot ∧ u.mem = s.mem) ∧
    (∀ p dev, x.runs = true → x.frozenLong s.wall = true → x.dueItems.find? x.absentEndpoint = none → x.frozenSend = some (p, dev) →
      exec (.endpointTimeout c) s = .next (if s.sendFree c dev then s else trapHere s c 0x0B 0 3 false p x.pc x.slot)) ∧
    (s.atStage3 c = true → x.budget = 0 → exec (.deadline c) s = .next (trapHere s c 0x05 0 0 false 0 x.pc x.slot)) ∧
    (s.atStage3 c = true → x.budget ≠ 0 → (∀ cause addr, x.form ≠ .fault cause addr) → x.ckptNext = false →
      8192 ≤ (x.lclk - x.ckpt).toNat →
      exec (.checkpointOverdue c) s = .next (trapHere s c 0x06 x.ckpt 0 false 0 x.pc x.slot))

/-! ## Events: commands at work -/

/-- Pending commands at work (R143, R144, R187, R212, R263, R264, R266, R270, R276, R277, R279): a sector of a tile load
writes the 64 bytes that memory holds and no other byte of tile SRAM, a sector of a tile store writes memory; a second
timeout of a sector ends its command with LINK_FAILED; a record of a batch is one read-modify-write whose old value is
returned; a near-memory command works on its next block of 16 indices, element by element; a permitted peer write brings its bytes
and counts in its flag word, a permitted read lands its bytes, on what the launch holds at the receiver alone (R284), and one that is
not permitted ends with CODE 3; a command that ends writes its completion word, or stays with its code while those bytes are not its
turn; a block of an exchange is cut from its sender's memory, and is written at its receiver. The model's choices here: a command that
is no reduction works in ascending blocks of 16 too (log 31), a transfer that an access table refuses ends with CODE 3 (logs 57, 58),
and a transfer works on its own launch's bytes at the receiver (log 57). -/
def Obligations.EventsCommands : Prop :=
  ∀ (s : State) (core id : Nat) (k : Cmd), (s.core core).cmds.find? (fun k => k.id == id) = some k →
    let kind := nmKind k.port
    let n := nmCount k.info
    let b := k.prog
    let hi := min n (16 * b + 16)
    let last := decide (n ≤ hi)
    (∀ sec pa, sec < k.nsec → k.done.contains sec = false → sectorReady s core k sec = true →
      (∃ j, j < k.nsec ∧ j ≠ sec ∧ k.done.contains j = false) → s.asleep pa = false →
      let off := (k.ranges.headD (0, 0)).1 + 64 * sec
      (k.port = 0x340 → (k.prog ≠ 0 ∨ (s.pagesAway core k.spid k.a.toNat (64 * k.nsec) = [] ∧
          s.boundHit core k.spid k.a.toNat (64 * k.nsec) = false)) →
        s.reach core k.spid (k.a.toNat + 64 * sec) Need.counted = .at pa → marksHit s.marks pa 64 = false →
        ∃ u, exec (.engineSectorReturn core id sec) s = .next u ∧ ∀ a, Mem.get (u.core core).tile a =
          if off ≤ a ∧ a < off + 64 then Mem.get s.mem (pa + (a - off)) else Mem.get (s.core core).tile a) ∧
      (k.port = 0x341 → k.data.any (fun e => e.1 == sec) = false → marksHit (s.core core).tmarks off 64 = false →
        s.reach core k.spid (k.a.toNat + 64 * sec) Need.write = .at pa → inPeer pa = false →
        ∃ u, exec (.engineSectorReturn core id sec) s = .next u ∧
          (∀ j a, Mem.get (u.core j).tile a = Mem.get (s.core j).tile a) ∧
          ∀ i, i < 64 → Mem.get u.mem (pa + i) = Mem.get (s.core core).tile (off + i))) ∧
    (∀ sec, sec < k.nsec → k.done.contains sec = false → k.moored.contains sec = false →
      (k.port = 0x351 ∨ k.port = 0x352 ∨
        (0x340 ≤ k.port ∧ k.port ≤ 0x342 ∧ sectorReady s core k sec = true ∧ s.sectorAsleep core k sec = false)) →
      (k.retried.contains sec = false → ∃ u, exec (.sectorTimeout core id sec) s = .next u ∧
        (u.core core).cmds.find? (fun k => k.id == id) = some { k with retried := k.retried ++ [sec] } ∧ u.mem = s.mem) ∧
      (k.retried.contains sec = true → k.fails = [] → exec (.sectorTimeout core id sec) s = .next (finish s core id 5 sec))) ∧
    (∀ i pa rpa, k.port = 0x32D → i < k.nsec → k.done.contains i = false → k.data.any (fun e => e.1 == i) = false →
      recordReady s core k i = true →
      let op := fld k.a 20 4
      let m := (s.core core).tile
      let off := (k.ranges.headD (0, 0)).1 + (if op = 10 then 32 else 16) * i
      let va := Mem.readLE m off 8
      let old : Word := BitVec.ofNat 64 (Mem.readLE s.mem pa 8)
      s.reach core k.spid (k.b.toNat + 8 * i) Need.write = .at rpa → s.asleep rpa = false →
      marksHit (s.core core).tmarks off (if op = 10 then 32 else 16) = false → va % 8 = 0 →
      s.reach core k.spid va Need.write = .at pa → s.reach core k.spid va Need.read = .at pa → inHost pa = false →
      inPeer pa = false → s.asleep pa = false → marksHit s.marks pa 8 = false → (pa + 8 ≤ rpa ∨ rpa + 8 ≤ pa) →
      ∃ u, exec (.batchRecordPerform core id i) s = .next u ∧ BitVec.ofNat 64 (Mem.readLE u.mem rpa 8) = old ∧
        BitVec.ofNat 64 (Mem.readLE u.mem pa 8) = atomic op old
          (BitVec.ofNat 64 (Mem.readLE m (off + if op = 10 then 16 else 8) 8)) (BitVec.ofNat 64 (Mem.readLE m (off + 8) 8))) ∧
    (0x358 ≤ k.port → k.port ≤ 0x35C → k.fin = none → k.ended = none → nearReady s k = true →
      (∀ e ∈ nmBlock s core k (16 * b) hi last, e = .code 0) →
      let s0 := (nmFill (s.updCmd core id (fun m => { m with moored := [], parked := false, prog := b + 1 })) core k).entryKind k.c id .nm
      let put := (List.range (hi - 16 * b)).foldl (fun s j => nmElem s core k (16 * b + j)) s0
      let acc := nmOplus (nmOp k.info) (nmAcc k) (nmTree s core k b)
      exec (.nearMemoryExecute core id) s = .next (
        if kind = .red then
          (if last then finish (s0.putMem (s.paOf core k.spid (nmAddr k.info 0)) (leBytes 8 acc)) core id 0 0
           else s0.updCmd core id (fun m => { m with info := nmSetAcc m.info acc }))
        else if last then finish put core id 0 0 else put)) ∧
    (∀ i, let w := nmW kind k.info 0
      let at0 := s.paOf core k.spid (nmAddr k.info 0 + i * w)
      let u := nmElem s core k i
      let x (t : Nat) := decF (nmF k t) (nmGet s core k t i)
      (kind = .fill → Mem.readLE u.mem at0 w = (nmC k.info 1 * 2 ^ 32 + nmC k.info 0) % 2 ^ (8 * w)) ∧
      (kind = .copy → Mem.readLE u.mem at0 w = nmGet s core k 1 i) ∧
      (kind = .fuse →
        let md := nmMod k.info
        let W (t : Nat) := nmW .fuse k.info t
        let place (s : State) (t : Nat) := s.paOf core k.spid (nmAddr k.info t + i * W t)
        let apart (p q : Nat) := place s p + W p ≤ place s q ∨ place s q + W q ≤ place s p
        let used := 3 ∈ nmUsed .fuse k.info
        let c (n : Nat) := decF .fp32 (nmC k.info n)
        let m1 := encF (nmF k 2) md (sumRM md [(c 1).mul (x 2), x 1])
        let v := encF .fp32 0 (sumFV [(c 2).mul (x 0), decF (nmF k 2) m1])
        let w1 := encF (nmF k 0) md (sumRM md [x 0, ((c 0).mul (decF .fp32 v)).negate])
        let s1 := s.putMem (place s 2) (leBytes (W 2) m1)
        let s2 := s1.putMem (place s 0) (leBytes (W 0) w1)
        apart 0 2 → (used → apart 0 3 ∧ apart 2 3) → place s1 0 = place s 0 → (used → place s2 3 = place s 3) →
        Mem.readLE u.mem (place s 2) (W 2) = m1 % 2 ^ (8 * W 2) ∧ Mem.readLE u.mem (place s 0) (W 0) = w1 % 2 ^ (8 * W 0) ∧
        (used → Mem.readLE u.mem (place s 3) (W 3) = encF (nmF k 3) md (decF (nmF k 0) w1) % 2 ^ (8 * W 3))) ∧
      (kind = .sadd → Mem.readLE u.mem at0 w =
        encF (nmF k 0) (nmMod k.info) (sumRM (nmMod k.info) [(decF .fp32 (nmC k.info 0)).mul (x 1), x 2]) % 2 ^ (8 * w))) ∧
    (∀ (x : PeerXfer) (l : Launch) (g : Grant), s.launchOf x.launch = some l → x.sdev.toNat = l.rank →
      coreOfPos x.score.toNat = core → x.id = id → k.task.launch = l.id → fld k.a 48 16 = l.rank → x.ddev.toNat = l.rank →
      fld k.a 32 11 = x.tcore.toNat → fld k.a 0 21 = x.toff.toNat → k.ended = none → k.prog = 0 → (x.kind = .write ∨ x.kind = .read) →
      peerReady s core k = true → s.cutOff (core / 96) (coreOfPos x.tcore.toNat / 96) = false →
      let r := k.ranges.headD (0, 0)
      let t := coreOfPos x.tcore.toNat
      let fo := fld g.info 128 32
      let owns (a : Nat) := (s.core t).owns x.launch a
      (k.port = 0x351 → firstMark (s.core core).tmarks r.1 r.2 = none →
        (s.peerAdmits l x true = true → (s.core t).grants.find? (fun g => grantPeer g x true r.2) = some g →
          (fo + 8 ≤ x.toff.toNat ∨ x.toff.toNat + r.2 ≤ fo) →
          ∃ v, exec (.peerTransferArrival x) s = .next (finish v core id 0 0) ∧
            (∀ i, i < r.2 → owns (x.toff.toNat + i) = true →
              Mem.get (v.core t).tile (x.toff.toNat + i) = Mem.get (s.core core).tile (r.1 + i)) ∧
            ((∀ i, i < 8 → owns (fo + i) = true) →
              Mem.readLE (v.core t).tile fo 8 = (flagAdd (BitVec.ofNat 64 (Mem.readLE (s.core t).tile fo 8)) r.2).toNat) ∧
            (∀ a, owns a = false → Mem.get (v.core t).tile a = Mem.get (s.core t).tile a) ∧ ∀ j, j ≠ t → v.core j = s.core j) ∧
        (s.peerAdmits l x true = false ∨ (s.core t).grants.find? (fun g => grantPeer g x true r.2) = none →
          exec (.peerTransferArrival x) s = .next (finish s core id 3 0))) ∧
      (k.port = 0x352 → r.2 % 64 = 0 →
        (s.peerAdmits l x false = true → (s.core t).grants.any (fun g => grantPeer g x false r.2) = true →
          (s.core t).ownMark x.launch x.toff.toNat r.2 = none →
          ∃ v, exec (.peerTransferArrival x) s = .next (finish v core id 0 0) ∧
            ∀ i, i < r.2 →
              let a := x.toff.toNat + i
              (owns a = true → Mem.get (v.core core).tile (r.1 + i) = Mem.get (s.core t).tile a) ∧
              (owns a = false → (s.core t).keptOf x.launch (a / 64) = none → Mem.get (v.core core).tile (r.1 + i) = 0)) ∧
        (s.peerAdmits l x false = false ∨ (s.core t).grants.any (fun g => grantPeer g x false r.2) = false →
          exec (.peerTransferArrival x) s = .next (finish s core id 3 0)))) ∧
    (∀ code first, code < 256 → k.ended = none →
      let u := finish s core id code first
      (s.endFree core k code = true → (∀ m ∈ (u.core core).cmds, m.id ≠ id) ∧
        Mem.readLE (u.core core).tile k.cw 8 = 256 + code + (if code = 0 then 0 else first % 65536 * 2 ^ 32)) ∧
      (s.endFree core k code = false → (u.core core).tile = (s.core core).tile ∧
        (u.core core).cmds.find? (fun m => m.id == id) =
          some { k with ended := some (code, first), done := k.done ++ k.left, moored := [], parked := false })) ∧
    (∀ (p : Packet) (l : Launch), s.launchOf p.launch = some l → isBlock p = true → fld p.hdr 29 3 = 1 → p.note = .data →
      l.closedAq.contains (pktSeq p.hdr) = false → s.failing l.id (pktSeq p.hdr) = false → fld p.hdr 84 10 + 1 = mapN k.info →
      blockGood k.info (blkSender p.hdr) (blkOff p.hdr) (blkCount p.hdr) = true →
      let entry (r : Nat) : Nat := (k.ranks.getD r 0).toNat
      let a := blkRange k.info p
      (∀ (rank : Nat) (bs : List Byte), p.payload = [] →
        s.aqCmd l.id (pktSeq p.hdr) (fun q => mapRank q.info == blkSender p.hdr) = some (core, k) →
        (List.range (mapN k.info)).find? (fun r =>
          entry r / 8192 % 65536 == blkDev p.hdr && ctxOfPos (entry r % 8192) == blkCtx p.hdr) = some rank →
        let keys := blkKeys k.info rank (blkOff p.hdr) (blkCount p.hdr)
        let vas := (List.range (blkCount p.hdr)).map (fun i => mapSaddr k.info rank (blkOff p.hdr + i))
        keys.any k.done.contains = false → vas.all (fun va => s.entryReady k.c k.id va (mapW k.info)) = true →
        readBlock s core k rank (blkOff p.hdr) (blkCount p.hdr) = .bytes bs →
        (blkDev p.hdr ≠ l.rank → s.storeAhead k (blkDev p.hdr) = false ∧ s.admits (396 + homeOf core) core k.spid true = true ∧
          s.aqFront k (blkDev p.hdr) ((s.aqRank l.id (mapSeq k.info) rank).map (fun j =>
            (fld j.info 256 64 + mapW k.info * blkOff p.hdr, mapW k.info * blkCount p.hdr))) = false) →
        let q : Packet := { p with
          payload := bs ++ List.replicate ((64 - bs.length % 64) % 64) 0, src := homeOf core, dev := l.rank, tag := 0 }
        let s1 := (vas.foldl (fun s va => s.fillTlb core k.spid va) s).updCmd core id (fun m =>
          { m with done := m.done ++ keys, away := m.away ++ keys, moored := [] })
        exec (.aqueductBlockArrival p) s = .next (placeBlock { s1 with packets := s1.packets ++ [q] } l q)) ∧
      (∀ pa, p.payload ≠ [] → a.2 ≤ p.payload.length → s.hasPkt p = true → blkDev p.hdr = l.rank →
        (p.src < 24 → s.cutOff (p.src / 6) (homeOf (blkCtx p.hdr / 4) / 6) = false) →
        (p.dev ≠ l.rank → s.admits (396 + homeOf (blkCtx p.hdr / 4)) (400 + homeOf (blkCtx p.hdr / 4)) l.spid true = true) →
        s.blkInto p = some (core, k) →
        s.allJoined l.id 0x350 (pktSeq p.hdr) = true →
        (List.range (blkCount p.hdr)).any (fun i => k.done.contains (blkOff p.hdr + i)) = false → s.blockTurn l (core, k) p = true →
        a.1 / 65536 = (a.1 + a.2 - 1) / 65536 → s.reach core k.spid a.1 Need.write = .at pa → s.asleep pa = false → inPeer pa = false →
        edgeMarked s core k.spid a.1 a.2 (mapW k.info) = false → bit k.info 191 = false →
        ∃ u, exec (.aqueductBlockArrival p) s = .next u ∧ ∀ i, i < a.2 → Mem.get u.mem (pa + i) = p.payload.getD i 0))

/-! ## Events: Wharves, links, lock-keepers -/

/-- The Wharf (R198, R200, R205, R210, R346): an operation that may perform, on a variable that is not in a stack in
self-refresh, and that no failed edge cuts off, takes its effect on the one variable it names, as one read-modify-write whose
old value is its answer; on a counter with armed operations it is refused; one that the Wharf's access table refuses is answered
so and has no effect; the answer arrives at the item that waits for it; a timed wait whose limit has passed in an earlier cycle is
answered with status 3, and in the cycle of its expiry it waits on (R205). -/
def Obligations.EventsWharf : Prop :=
  ∀ (s : State) (die : Nat),
    let k := s.wharf die
    (∀ (id : Nat) (op : WOp), k.inq.find? (fun o => o.id == id) = some op → wharfReady s die op = true → s.timedOut op.c op.fid = false →
      s.opStack die op = none → s.cutOff (op.c / 384) die = false →
      let admitted := s.admits (392 + die) (op.c / 4) op.spid (!op.reads)
      let off := fld op.addr 0 26
      let v := s.var die off
      let b := op.b
      (admitted = false → op.cmd = none → op.port ≠ 0 → ∃ u, exec (.wharfOperationPerform die id) s = .next u ∧
        (∀ d o, u.var d o = s.var d o) ∧ (u.wharf die).replies = k.replies ++ [(op.c, op.fid, .denied)]) ∧
      (op.port = 0x310 → admitted = true → ∃ u, exec (.wharfOperationPerform die id) s = .next u ∧ (∀ o, u.var die o = s.var die o) ∧
        (u.wharf die).replies = k.replies ++ [(op.c, op.fid, .ok v)]) ∧
      (∀ p ∈ [(0x311, b), (0x312, v + b), (0x314, if b.toInt < v.toInt then b else v), (0x315, if v.toInt < b.toInt then b else v),
          (0x316, if b.toNat < v.toNat then b else v), (0x317, if v.toNat < b.toNat then b else v), (0x318, v &&& b), (0x319, v ||| b),
          (0x31A, v ^^^ b), (0x31B, b), (0x32B, b)] ++ (List.range 8).map (fun j => (0x320 + j, if v = op.e then b else v)),
        op.port = p.1 → admitted = true → s.armedAt die off = false → k.waiters = [] → k.barriers.contains (off / 32 * 32) = false →
        ∃ u, exec (.wharfOperationPerform die id) s = .next u ∧ u.var die off = p.2 ∧ (∀ o, o ≠ off → u.var die o = s.var die o) ∧
          (u.wharf die).replies = k.replies ++ [(op.c, op.fid, .ok v)] ∧ (u.wharf die).inq = k.inq.filter (fun o => o.id != id) ∧
          u.mem = s.mem ∧ u.cores = s.cores ∧ u.ctxs = s.ctxs) ∧
      (op.port ∈ [0x311, 0x312, 0x313, 0x314, 0x315, 0x316, 0x317, 0x318, 0x319, 0x31A, 0x31B, 0x32B] ++
          (List.range 8).map (fun j => 0x320 + j) → admitted = true → s.armedAt die off = true → ∃ u, exec (.wharfOperationPerform die id) s = .next u ∧
        (∀ o, u.var die o = s.var die o) ∧ (u.wharf die).replies = k.replies ++ [(op.c, op.fid, .refused v)])) ∧
    (∀ (c fid : Nat) (r : Answer), ((s.wharfs.filter (fun e => !s.cutOff e.1 (c / 384))).flatMap (fun e => e.2.replies)).find?
        (fun r => r.1 == c && r.2.1 == fid) = some (c, fid, r) →
      (s.ctx c).snap.any (fun f => f.fid == fid) = true → ∃ u, exec (.wharfReply c fid) s = .next u ∧
        (u.ctx c).snap = (s.ctx c).snap.map (fun f => if f.fid = fid then
          { f with item := match f.item with | .wharf p a _ t => .wharf p a r t | i => i } else f) ∧ u.mem = s.mem) ∧
    (∀ (id e : Nat) (w : Waiter), k.waiters.find? (fun w => w.op.id == id) = some w → w.expire = some e →
      (s.wall ≤ e → exec (.twaitTimeout die id) s = .next s) ∧
      (e < s.wall → w.op.port ≠ 0 → ∃ u, exec (.twaitTimeout die id) s = .next u ∧
        (u.wharf die).replies = k.replies ++ [(w.op.c, w.op.fid, .ok (BitVec.ofNat 64 (3 + 256 * fld (s.var die w.key) 0 9)))] ∧
        ∀ o, u.var die o = s.var die o))

/-- Barrier records, sequenced additions and counters at their Wharf (R201, R204, R205, R207 to R210), where an operation may perform.
syn.expect and syn.arrive add their bytes to CLAIMED; an arrival counts for the phase or the next one, closes the gate with the
last, which sets MARK and completes the phase where the bytes have landed, or is held. A wait is answered or registered. A
contribution of syn.fadd whose turn it is is added, and the one buffered behind it; an early one is buffered, a late one sets DUP.
An increment wraps to nothing, or wakes the counter waits that it satisfies and fires the armed operation whose threshold it
reaches; syn.arm arms where there is room; syn.creset.f cancels, with each report word, and then sets the counter. An early
contribution is answered when it is buffered: the model's choice (log 26). So is what fires an armed operation (log 63): an increment,
with the value that the completion loop leaves, and no other change. -/
def Obligations.BarriersAndCounters : Prop :=
  ∀ (s : State) (die id : Nat) (op : WOp),
    let k := s.wharf die
    k.inq.find? (fun o => o.id == id) = some op → wharfReady s die op = true → s.timedOut op.c op.fid = false →
    s.opStack die op = none → s.cutOff (op.c / 384) die = false → s.admits (392 + die) (op.c / 4) op.spid (!op.reads) = true →
    let off := fld op.addr 0 26
    let b := op.b
    let w := s.var die off
    let ix := s.phaseIx die off
    let does (q : State → Prop) := ∃ u, exec (.wharfOperationPerform die id) s = .next u ∧ q u
    let gives (u : State) (n : Nat) := (op.c, op.fid, Answer.ok (BitVec.ofNat 64 n)) ∈ (u.wharf die).replies
    let count (u : State) (i : Nat) := fld (u.var die (off + 8 * i)) 0 48
    let claimed := (count s 1 + fld b 0 48) % 2 ^ 48
    let claims (u : State) := count u 1 = claimed ∧ u.var die (off + 16) = s.var die (off + 16) ∧
      ∀ o, o < off ∨ off + 32 ≤ o → u.var die o = s.var die o
    let missing (mark : Nat) := 2 ^ 47 ≤ (count s 2 + 2 ^ 48 - mark) % 2 ^ 48
    let rec' (u : State) (i c n : Nat) (gate : Bool) := u.phaseIx die off = i ∧ u.curArr die off = c ∧ u.nextArr die off = n ∧
      u.expectArr die off = s.expectArr die off ∧ bit (u.var die off) 9 = gate
    let adds (v w b : Word) := fld v 0 32 = encF .fp32 0 (sumFV [decF .fp32 (fld w 0 32), decF .fp32 (fld b 0 32)]) % 2 ^ 32 ∧
      fld v 32 16 = (fld w 32 16 + 1) % 65536 ∧ fld v 48 16 = fld w 48 16
    (op.port = 0x31D → off % 32 = 0 → s.recArmed die off = false → does (fun u => claims u ∧ gives u 0)) ∧
    (op.port = 0x31C → off % 32 = 0 → s.recArmed die off = false →
      let e := s.expectArr die off
      let c := s.curArr die off
      let n := s.nextArr die off
      does claims ∧
      (bit w 9 = false → e = 0 → does (fun u => gives u ix ∧ u.var die off = w)) ∧
      (bit w 9 = false → c + 1 < e → does (fun u => gives u ix ∧ rec' u ix (c + 1) n false)) ∧
      (bit w 9 = false → c + 1 = e → missing claimed → does (fun u => gives u ix ∧ rec' u ix e n true ∧ count u 3 = claimed)) ∧
      (bit w 9 = false → c + 1 = e → ¬ missing claimed → n < e → (∀ h ∈ k.heldArr, h.1 ≠ off) →
        does (fun u => gives u ix ∧ rec' u ((ix + 1) % 512) n 0 false ∧ count u 3 = claimed ∧
          ∀ v ∈ k.waiters, (v.op.port = 0x31E ∨ v.op.port = 0x31F) → v.key = off → fld v.op.b 0 9 = ix → v.late s.wall = false →
            (v.op.c, v.op.fid, Answer.ok (BitVec.ofNat 64 (1 + 256 * ((ix + 1) % 512)))) ∈ (u.wharf die).replies)) ∧
      (bit w 9 = true → missing (count s 3) → c = e → 1 ≤ e →
        (n < e → does (fun u => gives u ((ix + 1) % 512) ∧ rec' u ix c (n + 1) true)) ∧
        (e ≤ n → does (fun u => (u.wharf die).heldArr = k.heldArr ++ [(off, op)] ∧ u.var die off = w)))) ∧
    (op.port = 0x31E ∨ op.port = 0x31F → k.barriers.contains off = true →
      let d := (fld b 0 9 + 512 - ix) % 512
      let l := fld b 32 32
      (d = 511 → does (fun u => gives u (1 + 256 * ix))) ∧ (256 ≤ d → d ≤ 510 → does (fun u => gives u (2 + 256 * ix))) ∧
      (d < 256 → op.port = 0x31F → l = 0 → does (fun u => gives u (3 + 256 * ix))) ∧
      (d < 256 → op.port = 0x31E → does (fun u => (u.wharf die).waiters = k.waiters ++ [⟨op, off, none⟩])) ∧
      (d < 256 → op.port = 0x31F → 1 ≤ l → ∃ e, s.wall + l ≤ e ∧ 5 * (e - s.wall) < 6 * l + 5 ∧
        does (fun u => (u.wharf die).waiters = k.waiters ++ [⟨op, off, some e⟩]))) ∧
    (op.port = 0x313 → s.armedAt die off = false → k.barriers.contains (off / 32 * 32) = false →
      let d := (fld b 32 16 + 65536 - fld w 32 16) % 65536
      let next := (fld b 32 16 + 1) % 65536
      (d = 0 → (∀ h ∈ k.reorder, h.1 ≠ off ∨ fld h.2.b 32 16 ≠ next) →
        does (fun u => gives u 0 ∧ adds (u.var die off) w b ∧ (u.wharf die).reorder = k.reorder)) ∧
      (∀ o : WOp, d = 0 → k.reorder = [(off, o)] → fld o.b 32 16 = next →
        does (fun u => (∃ m, adds m w b ∧ adds (u.var die off) m o.b) ∧ (u.wharf die).reorder = [])) ∧
      (1 ≤ d → d ≤ 32767 → does (fun u => gives u 0 ∧ (u.wharf die).reorder = k.reorder ++ [(off, op)] ∧
        ∀ o, u.var die o = s.var die o)) ∧
      (32768 ≤ d → does (fun u => gives u 0 ∧ (u.wharf die).reorder = k.reorder ∧ bit (u.var die off) 63 = true ∧
        ∀ i, i < 63 → (u.var die off).getLsbD i = w.getLsbD i))) ∧
    (∀ cid, op.port = 0x329 → op.cmd = some cid →
      let v := w.toNat + fld b 0 46
      let due := k.armed.filter (fun a => a.key == off && decide (fld a.info 64 64 ≤ v))
      let ends (code : Nat) (q : State → Prop) :=
        ∃ t, exec (.wharfOperationPerform die id) s = .next (finish t (op.c / 4) cid code 0) ∧ q t
      (2 ^ 64 ≤ v → ends 7 (fun t => (∀ d o, t.var d o = s.var d o) ∧ (t.wharf die).armed = k.armed)) ∧
      (v < 2 ^ 64 → k.barriers.contains (off / 32 * 32) = false →
        (due = [] → ends 0 (fun t => (t.var die off).toNat = v ∧ (∀ o, o ≠ off → t.var die o = s.var die o) ∧
          (t.wharf die).armed = k.armed ∧ ∀ q ∈ k.waiters, q.op.port = 0x328 → q.key = off → q.op.b.toNat ≤ v →
            (q.op.c, q.op.fid, Answer.ok (BitVec.ofNat 64 v)) ∈ (t.wharf die).replies)) ∧
        (∀ a : Armed, due = [a] → fld a.info 0 4 = 0 →
          let r : Word := BitVec.ofNat 64 (fld a.info 128 64)
          let d := fld r 26 2
          let at0 := fld r 0 26
          s.admits (392 + d) (a.c / 4) a.spid true = true → s.varAsleep d at0 = false → s.armedAt d at0 = false →
          s.cutOff die d = false → d ≠ die ∨ at0 ≠ off → (s.wharf d).barriers.contains (at0 / 32 * 32) = false →
          ends 0 (fun t => (t.var die off).toNat = v ∧
            t.var d at0 = atomic (fld a.info 8 4) (s.var d at0) (BitVec.ofNat 64 (fld a.info 192 64)) 0 ∧
            (∀ x, x ∈ (t.wharf die).armed ↔ x ∈ k.armed ∧ x ≠ a) ∧
            (fld a.info 12 26, 0, a.spid) ∈ (t.wharf die).reports)))) ∧
    (op.port = 0x328 →
      (b.toNat ≤ w.toNat → does (fun u => gives u w.toNat)) ∧
      (w.toNat < b.toNat → does (fun u => (u.wharf die).waiters = k.waiters ++ [⟨op, off, none⟩]))) ∧
    (op.port = 0x32A →
      let full := 65536 ≤ k.armed.length ∨ 256 ≤ (k.armed.filter (fun a => a.key == off)).length
      (full → does (fun u => gives u 2 ∧ (u.wharf die).armed = k.armed)) ∧
      (¬ full → w.toNat < fld op.info 64 64 → does (fun u => gives u 0 ∧
        (u.wharf die).armed = k.armed ++ [⟨op.id, off, op.info, op.task.launch, op.spid, op.c⟩]))) ∧
    (op.port = 0x32C → k.barriers = [] → does (fun u => gives u w.toNat ∧ u.var die off = b ∧
      (∀ a ∈ k.armed, a.key = off → fld a.info 12 26 ≠ off → u.var die (fld a.info 12 26) = 0x107) ∧
      ∀ a, a ∈ (u.wharf die).armed ↔ a ∈ k.armed ∧ a.key ≠ off))

/-- Messages and links (R217, R225, R227, R228, R378): a message that may come enters the inlet of its context with the next ordinal of
its source; its slot is free again once it is acknowledged, and so are those of engine traffic that left for another device and
waits behind nothing, and the freeze of a syn.send that finds a slot then is over; a resend changes nothing; no flit stays on a
port whose link is down; an atomic from another device is recorded. That it has no other effect here, its completion with an error
being UALink's, is the model's choice (log 44), and so is how engine traffic stands in State.outbound and is acknowledged (log 57). -/
def Obligations.EventsLinks : Prop :=
  ∀ s : State,
    (∀ (m : Msg) (l : Launch), s.launchOf m.launch = some l → m.ddev.toNat = l.rank →
      let c := ctxOfPos m.dst.toNat
      let n := NMap.get 0 (s.ctx c).arrived (msgKey m) + 1
      s.holdsLaunch c l.id = true → (s.ctx c).inlet.length < 64 →
      (m.sdev.toNat ≠ l.rank ∨
        ∃ f, s.flits.find? (fun f => f.msg == m && !f.took) = some f ∧ s.flitFree f = true ∧ s.flitFirst f = true ∧
          s.cutOff (f.core / 96) (dieOf c) = false) →
      ∃ u, exec (.messageArrival m) s = .next u ∧ (u.ctx c).inlet = (s.ctx c).inlet ++ [(n, m)] ∧
        NMap.get 0 (u.ctx c).arrived (msgKey m) = n ∧ (∀ j, j ≠ c → u.ctx j = s.ctx j) ∧ u.mem = s.mem ∧ u.cores = s.cores) ∧
    (∀ (id : Nat) (f : Flit) (l : Launch), s.flits.find? (fun f => f.id == id) = some f → s.launchOf f.msg.launch = some l →
      (if f.msg.ddev.toNat = l.rank then f.took = true else s.flitFree f = true ∧ s.flitFirst f = true ∧ f.leads = true) →
      exec (.messageAcknowledgement id) s = .next ({ s with flits := s.flits.filter (fun e => e.id != id) }).slotFreed) ∧
    (∀ id, s.flits.find? (fun f => f.id == id) = none →
      exec (.messageAcknowledgement id) s =
      .next ({ s with outbound := s.outbound.filter (fun o => o.id != id || o.behind != []) }).slotFreed) ∧
    (s.slotFreed = { s with ctxs := s.slotFreed.ctxs } ∧ ∀ c, s.slotFreed.ctx c = { s.ctx c with
      frozenAt := (match (s.ctx c).frozenSend with
        | some (_, dev) => if s.sendFree c dev = true then none else (s.ctx c).frozenAt
        | none => (s.ctx c).frozenAt) }) ∧
    (∀ port, exec (.flitResend port) s = .next s) ∧
    (∀ port, port < 24 → s.deadPorts.contains port = false → ∃ u, exec (.linkDown port) s = .next u ∧
      u.deadPorts = s.deadPorts ++ [port] ∧ (∀ f ∈ u.flits, f.port ≠ port) ∧ ∀ o ∈ u.outbound, o.port ≠ some port) ∧
    ∀ port, exec (.ualinkAtomicRequest port) s = .next (s.event 9 1 (BitVec.ofNat 64 port) 0 (400 + port))

/-- Lock-keepers (R242, R243, R245, R248, R249, R254, R346): a packet acts at the home of its entry 0 by the kind of that entry,
where that lock-keeper holds the launch's firmware and admits the sender, and one that is not for this device leaves it; what a
DELIVER carries reaches the destination, once every rank has joined, and commands that are then through end (R255); an emit that keeps R245 is accepted and counted, and its
packet goes with the bytes of the source when those are its turn and its context is there, or fails the collective where the
tile-SRAM port refuses the lock-keeper or a line is marked; what the firmware has consumed makes room in the ring; a hart
reads its place in LKSELF; an exception without a handler stops the hart and faults its collectives. The model's choice here: an emit
or a packet that is refused at the tile-SRAM port, or that meets a marked line, fails the collective with CODE 3 or CODE 1 (log 58). -/
def Obligations.EventsLockKeepers : Prop :=
  ∀ s : State,
    (∀ (p : Packet) (l : Launch), s.launchOf p.launch = some l → p.note = .data → isBlock p = false → s.packets.contains p = true →
      l.closedSeq.contains (pktSeq p.hdr) = false → fld p.hdr 29 3 ≠ 0 → p.payload.length = pktBytes p.hdr → s.hopBehind l p = false →
      let e := pktEntry p.hdr 0
      let c := ctxOfPos (entCore e)
      let lk := hopKeeper p
      let from' := if p.src < 24 then p.src else lk
      let q := pktSeq p.hdr
      (entDev e ≠ l.rank →
        (∀ t, s.leave l (p.src / 6) (entDev e) (pktSlots p) (.pkt p) = some t → exec (.packetHop p) s = .next (dropPkt t p)) ∧
        (s.leave l (p.src / 6) (entDev e) (pktSlots p) (.pkt p) = none → exec (.packetHop p) s = .next s)) ∧
      (entDev e = l.rank → s.holdsFw l lk = true → s.cutOff (from' / 6) (lk / 6) = false → (s.keeper lk).stopped = false →
        (entBad e = true → exec (.packetHop p) s = .next (planFault (dropPkt s p) l.id q lk)) ∧
        (entBad e = false → s.admits (396 + lk) (400 + from') l.spid true = false →
          exec (.packetHop p) s = .next (refusePkt s l p)) ∧
        (entBad e = false → s.admits (396 + lk) (400 + from') l.spid true = true →
          (entKind e = 1 → exec (.packetHop p) s = .next (hopReduce s l p lk)) ∧
          (entKind e = 2 → fld p.hdr 29 3 = 1 → exec (.packetHop p) s = .next (endTag (dropPkt s p) l p)) ∧
          (entKind e = 2 → 1 < fld p.hdr 29 3 → ∃ t, exec (.packetHop p) s = .next t ∧
            t.packets = (dropPkt s p).packets ++ [{ p with hdr := popEntry p.hdr, src := lk }] ∧ t.mem = s.mem ∧ t.cores = s.cores) ∧
          (entKind e = 3 → exec (.packetHop p) s = .next (hopDeliver s l p lk)) ∧
          (∀ k, entKind e = 3 → 1 < fld p.hdr 29 3 → (s.core (c / 4)).cmds.find? (fun k => k.c == c && k.port == 0x338 &&
              k.task.launch == l.id && k.hasJoined && descSeq k.info == q) = some k →
            fld k.info 8 5 = fld p.hdr 24 5 → fld k.info 4 2 = fld p.hdr 22 2 → fld k.info 192 10 = fld p.hdr 84 10 →
            64 * entArg e + p.payload.length ≤ descDst k.info → s.admits (c / 4) (400 + lk) l.spid true = true →
            s.allJoined l.id 0x338 q = true →
            let at0 := (k.ranges.getLast?.getD (0, 0)).1 + 64 * entArg e
            s.tileFree (c / 4) k at0 p.payload.length = true →
            ∃ t, exec (.packetHop p) s = .next (settleColl t l.id q) ∧
              t.packets = (dropPkt s p).packets ++ [{ p with hdr := popEntry p.hdr, src := lk }] ∧
              ∀ a, Mem.get (t.core (c / 4)).tile a = if at0 ≤ a ∧ a < at0 + p.payload.length then p.payload.getD (a - at0) 0
                else Mem.get (s.core (c / 4)).tile a) ∧
          (entKind e = 5 → exec (.packetHop p) s = .next (hopSignal s l p lk))))) ∧
    (∀ (lk hart core : Nat) (addr launch : Word) (r : BitVec 640) (k : Cmd), (s.hart lk hart).launch = some launch →
      (s.hart lk hart).stopped = false → addr.toNat % 16 = 0 → addr.toNat + 80 ≤ 131072 →
      s.emitCmd lk launch (fld r 512 32) = some (core, k) → emitBad k r = false →
      ∃ u, exec (.lkemit lk hart addr r) s = .next u ∧ u.packets = s.packets ∧ u.mem = s.mem ∧
        (u.hart lk hart).emitted = (s.hart lk hart).emitted + 1 ∧
        (u.keeper lk).emits = (s.keeper lk).emits ++ [⟨core, k.id, BitVec.ofNat 512 (fld r 0 512), s.nextId + 1⟩]) ∧
    (∀ (lk : Nat) (e : Emit) (k : Cmd) (l : Launch), s.findCmd e.core e.cmd = some k → s.launchOf k.task.launch = some l →
      let off := (k.ranges.getD 2 (0, 0)).1 + 64 * fld e.hdr 112 16
      let n := pktBytes e.hdr
      let here := (s.core e.core).cmds.any (fun m => m.id == k.id)
      let allowed := s.admits e.core (400 + lk) l.spid false
      let rest := s.setKeeper lk { s.keeper lk with emits := (s.keeper lk).emits.filter (· != e) }
      (here = false ∨ s.tileFree e.core k off n = false → readEmit s lk e = s) ∧
      (here = true → s.tileFree e.core k off n = true →
        (allowed = false → readEmit s lk e = failSeq rest l.id 0x338 (descSeq k.info) 3) ∧
        (allowed = true → marksHit (s.core e.core).tmarks off n = true → readEmit s lk e = failSeq rest l.id 0x338 (descSeq k.info) 1) ∧
        (allowed = true → marksHit (s.core e.core).tmarks off n = false → (readEmit s lk e).packets =
          s.packets ++ [⟨e.hdr, Mem.read (s.core e.core).tile off n, l.id, lk, l.rank, e.tag, .data⟩]))) ∧
    (∀ (lk hart : Nat) (launch : Word) (l : Launch), (s.hart lk hart).launch = some launch → s.launchOf launch = some l →
      s.hartLoad lk hart 0x100020 8 = some (lkSelf lk l.rank).toNat ∧
      s.hartLoad lk hart 0x100000 8 = some (s.hart lk hart).head.toNat ∧ ∀ a n, 0x100028 ≤ a → 1 ≤ n → a + n ≤ 0x110000 →
        s.hartLoad lk hart a n = none ∧ ∀ v, s.hartStore lk hart a n v = none) ∧
    (∀ (lk hart : Nat) (val : Word), (s.hart lk hart).launch.isSome = true → (s.hart lk hart).stopped = false →
      let h := s.hart lk hart
      let room := 256 - (h.head - val.setWidth 32).toNat
      ∃ u, exec (.lkcmdtail lk hart val) s = .next u ∧ (u.hart lk hart).tail = val.setWidth 32 ∧
        (u.hart lk hart).waiting = h.waiting.drop room ∧ (u.hart lk hart).head = h.head + BitVec.ofNat 32 (min room h.waiting.length)) ∧
    (∀ (lk hart : Nat) (launch : Word), (s.hart lk hart).launch = some launch → (s.hart lk hart).stopped = false →
      exec (.hartException lk hart true) s = .next (faultAll (s.setHart lk hart { s.hart lk hart with stopped := true }) lk launch) ∧
      exec (.hartException lk hart false) s = .next s)

/-! ## Events: pages, tables, pools -/

/-- Pages (R338 to R341): an expanded page has the bytes of its compressed form, and its leaf names the frame with TIER clear and
A set; a compressed page's bytes stand in the compressed region, and its frame reads zero; a migrated page's bytes stand in the
new frame, where the frame tag table stands elsewhere (R360); a fault asks for a page once, on its master's die; the kernel
writes a leaf where the walk finds none, in a cleared frame where its PPN field is zero, and what waited on it replays. The model's
choices here: a leaf whose PPN field is zero takes a cleared frame of the pool (log 3), a frame that a page leaves reads zero, and
what stands in self-refresh makes all of this wait (log 54). -/
def Obligations.EventsPages : Prop :=
  ∀ (s : State) (spid : Nat) (va : Word),
    (∀ (a : Nat) (e : Word), s.walk spid va.toNat = .leaf a e false →
      (∀ (t : Nat × TierPage) (f : Nat) (s1 : State), bit e 5 = true → s.tier.find? (fun t => t.1 == ptePa e / 32768) = some t →
        s.kernelAsleep [] = none → needRun s (spPart (s.space spid)) 1 (s.keeps spid (va.toNat / 65536)) = .ok (f, s1) →
        (a + 8 ≤ f ∨ f + 65536 ≤ a) → s.tagsApart f 65536 →
        ∃ u, exec (.pageExpansion spid va) s = .next (replayPage u spid (va.toNat / 65536 * 65536) 65536) ∧
          (∀ i, i < 65536 → Mem.get u.mem (f + i) = Mem.get t.2.bytes i) ∧
          u.pteAt a = BitVec.ofNat 64 ((e.toNat % 32768 ||| 64) - 32 + f)) ∧
      (bit e 7 = false → bit e 5 = false → inHbm (ptePa e) = true → s.asleep (ptePa e) = false → s.kernelAsleep [] = none →
        (a + 8 ≤ ptePa e ∨ ptePa e + 65536 ≤ a) → s.tagsApart (ptePa e) 65536 → s.tagsApart a 8 →
        ∃ u d p, exec (.pageCompression spid va) s = .next u ∧ (d, p) ∈ u.tier ∧
          u.pteAt a = BitVec.ofNat 64 (e.toNat % 32768 + 32 + d * 32768) ∧
          ∀ i, i < 65536 → Mem.get p.bytes i = Mem.get s.mem (ptePa e + i) ∧ Mem.get u.mem (ptePa e + i) = 0) ∧
      (∀ frame : Word, frame.toNat % 65536 = 0 → bit e 7 = false → bit e 5 = false → inHbm (ptePa e) = true →
        (s.pool (spPart (s.space spid))).contains frame.toNat = true → (a + 8 ≤ ptePa e ∨ ptePa e + 65536 ≤ a) →
        (a + 8 ≤ frame.toNat ∨ frame.toNat + 65536 ≤ a) → (ptePa e + 65536 ≤ frame.toNat ∨ frame.toNat + 65536 ≤ ptePa e) →
        s.firstAsleep [ptePa e, frame.toNat] = none → s.kernelAsleep [] = none → s.tagsApart (ptePa e) 65536 → s.tagsApart frame.toNat 65536 →
        ∃ u, exec (.pageMigration spid va frame) s = .next u ∧ u.pteAt a = BitVec.ofNat 64 (e.toNat % 32768 + frame.toNat) ∧
          ∀ i, i < 65536 → Mem.get u.mem (frame.toNat + i) = Mem.get s.mem (ptePa e + i) ∧ Mem.get u.mem (ptePa e + i) = 0)) ∧
    (s.walk spid va.toNat = .fault → s.unmappable.contains (spid, va.toNat / 65536) = false → ∀ master,
      exec (.pageRequest master spid va) s = .next (if s.requested spid (va.toNat / 65536) then s
        else { s with pageReqs := s.pageReqs ++ [(spid, va.toNat / 65536, dieOfMaster master)] })) ∧
    (∀ (pte : Word) (a : Nat) (s1 : State), bit pte 0 = true → bit pte 1 = true → pteBad pte 3 = false → va.toNat < 2 ^ 52 →
      bit (s.space spid) 0 = true → s.walk spid va.toNat = .fault → s.kernelAsleep [] = none →
      needEntry s spid va.toNat false (s.keeps spid (va.toNat / 65536)) = .ok (a, s1) →
      let base := va.toNat / 65536 * 65536
      let maps (t : State) := exec (.pageMapped spid va pte) s = .next (replayPage t spid base 65536) ∧
        t.requested spid (va.toNat / 65536) = false ∧ (spid, va.toNat / 65536) ∉ t.unmappable
      (ptePa pte ≠ 0 ∨ bit pte 5 = true → ∃ t, maps t ∧ t.pteAt a = pte) ∧
      (∀ f s2, ptePa pte = 0 → bit pte 5 = false →
        needRun s1 (spPart (s.space spid)) 1 (s1.keeps spid (va.toNat / 65536)) = .ok (f, s2) → (a + 8 ≤ f ∨ f + 65536 ≤ a) →
        s.tagsApart f 65536 →
        ∃ t, maps t ∧ t.pteAt a = BitVec.ofNat 64 (pte.toNat % 32768 + f) ∧ ∀ i, i < 65536 → Mem.get t.mem (f + i) = 0)) ∧
    (s.walk spid va.toNat = .fault →
      ∃ t, exec (.pageUnmappable spid va) s = .next (replayPage t spid (va.toNat / 65536 * 65536) 65536) ∧
        (spid, va.toNat / 65536) ∈ t.unmappable ∧ t.requested spid (va.toNat / 65536) = false ∧ t.mem = s.mem)

/-- Registers that act, pools and tables (R337, R343 to R346, R372, R376): a shoot-down leaves no translation of its page or
space, and one while another is pending is discarded; a pushed frame enters the selected pool, a pop takes the first; a slot byte
and an access slot read as written, at one place or at all; a pseudo-channel's grant goes to the partition its slot serves, as the slots stood when its table's turn began
(R376), and it goes on to the next slot; a write of the storage port performs at its page, or waits for it; a DMA read of it gets
the bytes of its page, or is refused. The model's choices here: a pop leaves what the read returns at offset 0x380 (log 38) and takes
the first frame of the pool (log 3); a shoot-down has performed once the stores of the space that are away have (log 37); the storage
port has one queue (log 58). -/
def Obligations.EventsTables : Prop :=
  ∀ (s : State) (val : Word),
    (s.shootPending = true → exec (.shoot val) s = .next s) ∧
    (s.shootPending = false → ∃ u, exec (.shoot val) s = .next u ∧ u.mem = s.mem ∧
      u.shooting = s.peerAway (fld val 0 12) ∧ (readReg u 0x310 = 1 ↔ u.shootPending = true) ∧
      (bit val 63 = true → ∀ e ∈ u.tlbs, e.spid ≠ fld val 0 12) ∧
      (bit val 63 = false → ∀ e ∈ u.tlbs, e.spid = fld val 0 12 → e.base.toNat ≠
        (if e.large then fld val 16 36 * 65536 / 2 ^ 28 * 2 ^ 28 else fld val 16 36 * 65536)) ∧
      ∀ e ∈ s.tlbs, e.spid ≠ fld val 0 12 → e ∈ u.tlbs) ∧
    (let p := fld (s.mreg 0x370) 0 4
     (val.toNat % 65536 = 0 → inHbm val.toNat = true → (∀ e ∈ s.pools, val.toNat ∉ e.2) →
       ∃ u, exec (.poolpush val) s = .next u ∧ u.pool p = s.pool p ++ [val.toNat] ∧ ∀ q, q ≠ p → u.pool q = s.pool q) ∧
     (∀ f l, s.pool p = f :: l → ∃ u, exec (.poolpop true) s = .next u ∧ u.mreg 0x380 = BitVec.ofNat 64 f ∧ u.pool p = l) ∧
     (s.pool p = [] → ∃ u, exec (.poolpop true) s = .next u ∧ u.mreg 0x380 = 0xFFFFFFFFFFFFFFFF ∧ u.pools = s.pools) ∧
     ∃ u, exec (.poolpop false) s = .next u ∧ u.mreg 0x380 = 0xFFFFFFFFFFFFFFFF ∧ u.pools = s.pools) ∧
    (let ch := fld (s.mreg 0x340) 0 10
     let n := fld (s.mreg 0x340) 16 6
     let b := BitVec.ofNat 8 (fld val 0 4 + fld val 7 1 * 128)
     ∃ u, exec (.slotval val) s = .next u ∧ ∀ c, c < 512 → ∀ i, i < 64 →
       NMap.get 0 u.slots (64 * c + i) = if i = n ∧ (ch = c ∨ ch = 1023) then b else NMap.get 0 s.slots (64 * c + i)) ∧
    (let m := fld (s.mreg 0x350) 0 9
     let t := fld (s.mreg 0x350) 16 9
     let j := fld (s.mreg 0x350) 32 3
     m < 426 → t < 422 ∨ t = 511 → ∃ u, exec (.atval val) s = .next u ∧ ∀ d, d < 422 → ∀ i, i < 8 → ∀ w, w < 426 →
       u.slotOf d w i = if w = m ∧ i = j ∧ (t = d ∨ t = 511) then BitVec.ofNat 16 (fld val 0 12 + fld val 13 3 * 2 ^ 13)
         else s.slotOf d w i) ∧
    (∀ (ch : Nat) (waiting : BitVec 16), ch < 512 → s.selfRef.getLsbD (ch / 64) = false →
      let n := NMap.get 0 s.slotAt ch
      let b := if n = 0 then NMap.get 0 s.slots (64 * ch) else NMap.get 0 s.turnSlots (64 * ch + n)
      ∃ u, exec (.slotGrant ch waiting) s = .next u ∧ NMap.get 0 u.slotAt ch = (n + 1) % 64 ∧ u.slots = s.slots ∧
        (∀ i, i < 64 → NMap.get 0 u.turnSlots (64 * ch + i) =
          if n = 0 then NMap.get 0 s.slots (64 * ch + i) else NMap.get 0 s.turnSlots (64 * ch + i)) ∧
        (bit b 7 = true → waiting.getLsbD (fld b 0 4) = true → NMap.get 0 u.grantLog ch = fld b 0 4 + 1) ∧
        (bit b 7 = true → waiting.getLsbD (fld b 0 4) = false → bit (s.mreg 0x338) (2 * fld b 0 4) = false →
          NMap.get 0 u.grantLog ch = 0)) ∧
    (∀ (spid : Nat) (addr : Word) (data : List Byte),
      (inHost addr.toNat = true → addr.toNat + data.length ≤ 0x200000000000 →
        exec (.hostLinkWrite false spid addr (.write data)) s = .next (s.putMem addr.toNat data)) ∧
      (addr.toNat < 0x4000000 → addr.toNat % 8 = 0 → data.length = 8 →
        exec (.hostLinkWrite false spid addr (.write data)) s = exec (.managementRegisterWrite false addr (BitVec.ofNat 64 (ofLE data))) s)) ∧
    (∀ (spid : Nat) (addr : Word) (data : List Byte), data ≠ [] → addr.toNat / 65536 = (addr.toNat + data.length - 1) / 65536 →
      s.portQ = [] → bit (s.space spid) 0 = true →
      (∀ pa, s.reach 425 spid addr.toNat ⟨1, true⟩ = .at pa → s.asleep pa = false → s.storageFrame spid pa = true →
        ∃ u, exec (.hostLinkWrite true spid addr (.write data)) s = .next u ∧ u.portQ = [] ∧
          ∀ i, i < data.length → Mem.get u.mem (pa + i) = data.getD i 0) ∧
      (s.reach 425 spid addr.toNat ⟨1, true⟩ = .unmapped →
        ∃ u, exec (.hostLinkWrite true spid addr (.write data)) s = .next u ∧ u.portQ = [.write spid addr.toNat data] ∧
          u.mem = s.mem ∧ u.requested spid (addr.toNat / 65536) = true)) ∧
    ∀ (spid n : Nat) (addr : Word), 1 ≤ n → addr.toNat / 65536 = (addr.toNat + n - 1) / 65536 → s.portQ = [] →
      bit (s.space spid) 0 = true →
      (∀ pa, s.reach 425 spid addr.toNat Need.read = .at pa → s.asleep pa = false →
        ∃ u, exec (.hostLinkWrite true spid addr (.read n)) s = .next u ∧ u.portQ = [] ∧
          u.portGave = s.portGave ++ [some (Mem.read u.mem pa n)]) ∧
      (s.reach 425 spid addr.toNat Need.read = .denied ∨ s.reach 425 spid addr.toNat Need.read = .noMap →
        ∃ u, exec (.hostLinkWrite true spid addr (.read n)) s = .next u ∧ u.portQ = [] ∧ u.portGave = s.portGave ++ [none]) ∧
      (s.reach 425 spid addr.toNat Need.read = .unmapped →
        ∃ u, exec (.hostLinkWrite true spid addr (.read n)) s = .next u ∧ u.portQ = [.read spid addr.toNat n] ∧
          u.portGave = s.portGave ∧ u.requested spid (addr.toNat / 65536) = true)

/-! ## Events: contexts, the kernel, the debugger -/

/-- The kernel and a context (R137, R138, R309, R310, R316, R317, R320, R322, R330, R353, R375): which traps it returns and
what a return restores; the trap that ends a task and taints its launch; an interrupt at a group boundary; a request that
stands until its context halts, and one that frees a staging context; the halt before a checkpoint group, or at a frozen one;
a save whose image stands in frames of its partition's pool; a restore that sets what the image holds, once the task's
place is clear (R284), or loses the context with a marked image. The model's choices here: an interrupt of a context that is not ready
is kept (log 15); which traps the kernel returns (log 7); what a restore takes from the record that the model keeps beside the image
(log 21); where the image stands, and that a sleeping stack makes a save or a restore wait (log 54). -/
def Obligations.EventsContexts : Prop :=
  ∀ (s : State) (c : Nat),
    let x := s.ctx c
    let still (y : Ctx) : Ctx := { y with frozenAt := none, frozenSend := none, frz := none }
    ((x.stat = .interrupted ∨ (x.stat = .trapped ∧ x.cause ∈ [0x0B, 0x10, 0x11])) → s.asked c = false →
      ∃ u, exec (.trapReturn c) s = .next u ∧ u.ctx c = still { x.reissued with stat := .ready } ∧ c ∉ u.notified ∧ u.mem = s.mem ∧
        u.cores = s.cores ∧ ∀ j, j ≠ c → u.ctx j = s.ctx j) ∧
    (∀ (q : TaskRef) (l : Launch), x.stat = .trapped → x.cause ∉ [0x08, 0x0B, 0x10, 0x11, 0x12] → x.task = some q →
      s.launchOf q.launch = some l →
      ∃ u m, exec (.trapEnd c) s = .next u ∧ (u.ctx c).stat = .free ∧ (u.ctx c).task = none ∧ u.launchOf q.launch = some m ∧
        m.verdict = 2 ∧ m.stat q.task = .ended c ∧ ∀ j, j ≠ c → u.ctx j = s.ctx j) ∧
    (x.stat = .ready → ∃ u, exec (.interrupt c) s = .next u ∧ c ∉ u.intReq ∧
      u.ctx c = still { x.parked with stat := if s.attached then .held else .interrupted } ∧
      u.msix = if s.attached then s.msix ++ [3] else s.msix) ∧
    (x.stat ≠ .ready → x.task.isSome = true → s.heldFor c = false → s.intReq.contains c = false →
      exec (.interrupt c) s = .next { s with intReq := s.intReq ++ [c] }) ∧
    (x.task.isSome = true → x.stat ∈ [CtxStat.ready, .trapped, .interrupted, .held] → (s.core (c / 4)).preempt = none →
      ∃ u, exec (.preemptionRequest c) s = .next u ∧ (u.core (c / 4)).preempt = some c ∧ u.ctxs = s.ctxs) ∧
    (∀ (q : TaskRef) (l : Launch), x.task = some q → x.stat = .staging → s.launchOf q.launch = some l →
      ∃ u m, exec (.preemptionRequest c) s = .next u ∧ (u.ctx c).task = none ∧ (u.ctx c).stat = .free ∧ c ∉ u.bindings ∧
        u.launchOf q.launch = some m ∧ m.stat q.task = .waiting) ∧
    (x.runs = true → s.asked c = true →
      (x.ckptNext = true → x.frz ≠ some .endpoint → ∃ u, exec (.contextHalt c) s = .next u ∧
        u.ctx c = still { x.parked with stat := .halted, atCkpt := true } ∧ (u.core (c / 4)).preempt = none) ∧
      (∀ p dev, x.ckptNext = true → x.frz = some .endpoint → x.frozenSend = some (p, dev) → s.sendFree c dev = true →
        ∃ u, exec (.contextHalt c) s = .next u ∧ u.ctx c = still { x.parked with stat := .halted, atCkpt := true } ∧
          (u.core (c / 4)).preempt = none) ∧
      (x.ckptNext = false → x.frz ∈ [some .engine, some .program, some .await, some .fetch] → ∃ u, exec (.contextHalt c) s = .next u ∧
        u.ctx c = still { x.parked with stat := .halted, atCkpt := false } ∧ (u.core (c / 4)).preempt = none)) ∧
    (∀ (q : TaskRef) (l : Launch) (fs : List Nat), x.task = some q → x.stat = .halted → s.saveReady c = true →
      s.launchOf q.launch = some l →
      let bs := imageOf s c x.atCkpt
      let part := spPart (s.space x.spid)
      s.saveFrames part bs.length = some fs → s.firstAsleep fs = none →
      ∃ u m v, exec (.contextSave c) s = .next u ∧ Mem.read u.mem (fs.headD 0) bs.length = bs ∧ (∀ f ∈ fs, f ∉ u.pool part) ∧
        (u.ctx c).task = none ∧
        (u.ctx c).stat = .free ∧ u.launchOf q.launch = some m ∧ m.stat q.task = .preempted c ∧ v ∈ u.saved ∧ v.task = q ∧ v.c = c ∧
        v.addr = fs.headD 0 ∧ v.frames = fs ∧ v.kept = x) ∧
    ∀ (v : Saved) (kind : Nat) (l : List Sec), s.restorable c = some v → s.clearFor c v.kept = true →
      s.firstAsleep (v.addr :: v.frames) = none →
      let n := min (Mem.readLE s.mem (v.addr + 48) 8) (2 ^ 26)
      let bs := Mem.read s.mem v.addr n
      let marked := marksHit s.marks v.addr n
      (marked = true → exec (.contextRestore c) s = .next (loseSaved s v)) ∧
      (marked = false → readImage bs c = none → exec (.contextRestore c) s = .next (s.updLaunch v.task.launch Launch.abort)) ∧
      (marked = false → readImage bs c = some (kind, l) → v.cmds = [] → (s.keeper (homeOf (c / 4))).buf = [] →
        ∀ la, s.launchOf v.task.launch = some la →
        ∃ u m, exec (.contextRestore c) s = .next u ∧ u.saved = s.saved.erase v ∧ u.launchOf v.task.launch = some m ∧
          m.stat v.task.task = .running c ∧ u.ctx c = { ctxOf v.kept bs l la.rank c with
            age := max v.kept.age x.age, arrived := v.arrived, mdqPromised := 0 })

/-- The debugger and the management registers (R360, R372, R375): a command without ATTACH has RESULT 4 and no other effect, and
one while a save is in progress, when BUSY reads 1, has none; an interrupt holds the named context; a save writes its image to the
host, or begins where something is still in flight; a resume, an edited restore and an end do what they
name, and an image longer than DBGLEN has RESULT 2; clearing ATTACH ends every held context; a write keeps the register's own bits,
and one that its Access code forbids changes nothing. The model's choices here: a restore is compared with the image that SAVE wrote,
and without one has RESULT 3 (log 17); a save that cannot be made yet waits with BUSY (log 61); FTTBASE moves the frame tag table with
its entries (log 53), once no stack sleeps that holds either place (log 54). -/
def Obligations.EventsDebugger : Prop :=
  ∀ s : State,
    let c := s.dbgCtx
    let x := s.ctx c
    let held := s.dbgSaving = none ∧ s.attached = true ∧ s.dbgOk = true ∧ s.heldFor c = true
    (∀ i ∈ [Instr.dbgInterrupt, .dbgSave, .dbgResume, .dbgRestore, .dbgEnd],
      (s.dbgSaving.isSome = true → exec i s = .next s) ∧
      (s.dbgSaving = none → s.attached = false → exec i s = .next (s.setMreg 0x428 64))) ∧
    (s.dbgSaving = none → s.attached = true → s.dbgOk = true → x.task.isSome = true → x.stat = .ready →
      ∃ u, exec .dbgInterrupt s = .next u ∧ (u.ctx c).stat = .held ∧ (u.ctx c).x = x.x ∧ u.mreg 0x428 = 0) ∧
    (held → s.saveReady c = true → (imageOf s c false).length ≤ (s.mreg 0x420).toNat →
      (s.mreg 0x418).toNat + (imageOf s c false).length ≤ 2 ^ 44 →
      ∃ u, exec .dbgSave s = .next u ∧ u.readHost (s.mreg 0x418).toNat (imageOf s c false).length = imageOf s c false ∧
        u.mreg 0x428 = 0 ∧ u.ctxs = s.ctxs) ∧
    (held → s.saveReady c = false → bit (s.mreg 0x428) 0 = false →
      ∃ u, exec .dbgSave s = .next u ∧ u.dbgSaving = some c ∧ bit (readReg u 0x428) 0 = true ∧ u.mem = s.mem ∧ u.saved = s.saved) ∧
    (held → ∃ u, exec .dbgResume s = .next u ∧ u.mreg 0x428 = 0 ∧ (u.ctx c).stat = .ready ∧ (u.ctx c).x = x.x ∧ (u.ctx c).pc = x.pc) ∧
    (held → ∃ u, exec .dbgEnd s = .next u ∧ u.mreg 0x428 = 0 ∧ (u.ctx c).task = none) ∧
    (held → s.dbgSaved c = none → exec .dbgRestore s = .next (s.setMreg 0x428 48)) ∧
    (∀ (v : Saved) (kind : Nat) (l : List Sec), held → s.dbgSaved c = some v →
      let a := (s.mreg 0x418).toNat
      let bs := s.readHost a (min (leAt (s.readHost a 64) 48 8) (2 ^ 26))
      let long := (s.mreg 0x420).toNat < bs.length
      ((readImage bs c).isSome = true → long → exec .dbgRestore s = .next (s.setMreg 0x428 32)) ∧
      (editedOk v.orig bs c = false → (readImage bs c = none ∨ ¬ long) → exec .dbgRestore s = .next (s.setMreg 0x428 48)) ∧
      (editedOk v.orig bs c = true → readImage bs c = some (kind, l) → ¬ long →
        ∃ u, exec .dbgRestore s = .next u ∧ u.mreg 0x428 = 0 ∧ (u.ctx c).stat = .ready ∧
          (u.ctx c).pc = BitVec.ofNat 64 (leAt bs 40 8) ∧ (u.ctx c).slot = leAt bs 5 1 / 32 ∧ (u.ctx c).v = x.v ∧
          (u.ctx c).p = BitVec.ofNat 8 (leAt bs 107 1 / 2 * 2))) ∧
    (∀ val : Word, ∃ u, exec (.dbgctl val) s = .next u ∧ u.mreg 0x400 = val &&& 1 ∧
      (bit val 0 = true → u.ctxs = s.ctxs) ∧ (bit val 0 = false → ∀ j, s.heldFor j = true → (u.ctx j).task = none)) ∧
    (∀ (kernel : Bool) (off val mask : Word) (host : Bool), regMask off.toNat = some (host, mask) →
      (host = false → kernel = false → exec (.managementRegisterWrite kernel off val) s = .next s) ∧
      (host = true ∨ kernel = true → off ≠ 0x130 → off ≠ 0x190 → off ≠ 0x360 → ∃ u, exec (.managementRegisterWrite kernel off val) s = .next u ∧
        u.mreg off.toNat = val &&& mask ∧ (∀ o, o ≠ off.toNat → u.mreg o = s.mreg o) ∧ u.mem = s.mem ∧ u.ctxs = s.ctxs)) ∧
    (∀ val : Word,
      let ends (a : Nat) : List Nat := [a, a + 2 ^ 24 - 1]
      let asleep := s.firstAsleep (ends val.toNat ++ (match s.tagPlace 0 with | some a => ends a | none => []))
      (∀ pa, asleep = some pa → exec (.managementRegisterWrite true 0x360 val) s = .next (s.holdFor pa (.table val))) ∧
      (asleep = none → ∃ u, exec (.managementRegisterWrite true 0x360 val) s = .next u ∧ u.mreg 0x360 = val ∧
        (∀ o, o ≠ 0x360 → u.mreg o = s.mreg o) ∧ (∀ pa, pa < 2 ^ 39 → u.tagWord pa = s.tagWord pa) ∧ u.ctxs = s.ctxs)) ∧
    ∀ (kernel : Bool) (val : Word), ∃ u, exec (.managementRegisterWrite kernel 0x518 val) s = .next u ∧
      u.mreg 0x518 = if 1000 ≤ val.toNat ∧ val.toNat ≤ 2800 then val else 2800

/-! ## Events: launches -/

/-- The life of a launch (R243, R283 to R287, R292 to R294, R299 to R304, R331, R348): a record of the ring is taken and
counted; a phase follows the one that has ended, and the last one ends the launch; a binding puts a task on a context; inputs
are copied one by one; a started context has its entry point, its budget and its arguments; an ended task retires; a quiesce
leaves nothing of its space; a completion leaves no launch, once its statement stands in its ring and the completion ring has room
(R373); a held launch is released or cancelled. The model's choices here: the load and store queues are emptied at retirement, and the
statement is emitted once the space has been quiesced (log 37); which contexts count as ready for the run limit (log 18); a mapping, a
clearing of tables and a copy wait for a stack in self-refresh (log 54), and a quiesce for accesses away in other devices (log 57). -/
def Obligations.EventsLaunches : Prop :=
  (∀ (s : State) (r : BitVec 1024), s.open' = true → s.closed = false → s.nextRecord = some r →
    let s1 := s.setMreg 0x118 (s.mreg 0x118 + 1)
    (∀ t, takeRecord s1 r = some t → exec .launchAcceptance s = .next (settleQueue t)) ∧
    (takeRecord s1 r = none → exec .launchAcceptance s = .next s) ∧
    (∀ cause, refusal s1 r = some cause → takeRecord s1 r = some (refuse s1 r cause)) ∧
    ∀ m, refusal s1 r = none → parseImage (s1.readHost (fld r 192 64) (fld r 128 32)) = some m →
      (∀ t, admitLaunch s1 r m = .done t → takeRecord s1 r = some t) ∧
      (∀ cause t, admitLaunch s1 r m = .refused cause t → takeRecord s1 r = some (refuse t r cause)) ∧
      (admitLaunch s1 r m = .wait → takeRecord s1 r = none)) ∧
  (∀ (s : State) (id : Word) (l : Launch), s.launchOf id = some l →
    (l.stage = 2 → l.phaseDone = true → ∃ u m, exec (.phaseBoundary id) s = .next u ∧ u.launchOf id = some m ∧
      match l.phaseFrom (l.phase + 1) with
      | none => m.stage = 4 ∧ m.phaseOn = false
      | some p => m.stage = 2 ∧ m.phase = p ∧ m.variant = l.choose p false ∧ m.nphase = l.nphase + 1 ∧
          ∀ i ∈ l.inPhase p, l.variantOf i ≠ m.variant → m.stat i = .skipped) ∧
    (∀ i c, l.stat i = .ended c → s.mayRetire id i c = true → ∃ u m, exec (.taskRetirement id i) s = .next u ∧
      u.launchOf id = some m ∧ m.stat i = .retired ∧ (u.ctx c).loadQ = [] ∧ (u.ctx c).storeQ = []) ∧
    (3 ≤ l.stage → l.stage ≠ 5 → l.stmt = 0 → s.spaceAway l.spid = false →
      (s.ringsFree = true → s.selfRef = 0 → ∃ u, exec (.launchCompletion id) s = .next u ∧ u.launchOf id = none ∧ u.space l.spid = 0 ∧
        s.stmtSeq < u.stmtSeq ∧ (l.part, l.htag, l.verdict, l.status) ∈ u.completed) ∧
      (s.completionRoom = false → ∃ u m, exec (.launchCompletion id) s = .next u ∧
        u.launchOf id = some m ∧ m.stmt = s.stmtSeq + 1 ∧ u.stmtSeq = s.stmtSeq + 1)) ∧
    (3 ≤ l.stage → l.stmt ≠ 0 ∨ l.stage = 5 →
      (s.heldBack l.stmt = true ∨ s.completionRoom = false ∨ (s.spaceAsleep l.spid).isSome = true →
        exec (.launchCompletion id) s = .next s) ∧
      (s.heldBack l.stmt = false → s.completionRoom = true → s.spaceAsleep l.spid = none →
        ∃ u, exec (.launchCompletion id) s = .next u ∧ u.launchOf id = none ∧
          (l.part, l.htag, l.verdict, if l.stage = 3 then 3 else if l.stage = 5 then 4 else 0) ∈ u.completed)) ∧
    (s.launches.find? (fun m => m.htag == l.htag && m.stage == 1) = some l → l.id = id → s.open' = true →
      (l.deps.any l.depWaits = false → l.fw = none → ∃ u m, exec (.release l.htag) s = .next u ∧ u.launchOf id = some m ∧
        m.stage = 2 ∧ m.released = true ∧ m.phase = (l.phaseFrom 0).getD 0) ∧
      (s.completionRoom = true → s.heldBack l.stmt = false → s.selfRef = 0 → ∃ u, exec (.cancel l.htag) s = .next u ∧
        u.launchOf id = none ∧ (l.part, l.htag, l.verdict, 4) ∈ u.completed) ∧
      (s.completionRoom = false → ∃ u m, exec (.cancel l.htag) s = .next u ∧ u.launchOf id = some m ∧ m.stage = 5 ∧
        u.completed = s.completed))) ∧
  (∀ (s : State) (die i c : Nat) (l : Launch), s.candidate die = some (l, i, c) → ∃ u, exec (.taskBinding die) s = .next u ∧
    (u.ctx c).stat = .staging ∧ (u.ctx c).task = some ⟨l.id, i⟩ ∧ (u.ctx c).spid = l.spid ∧ (∀ r, (u.ctx c).xreg r = 0) ∧
    (u.ctx c).v = [] ∧ c ∈ u.bindings ∧ ∀ j, j ≠ c → u.ctx j = s.ctx j) ∧
  (∀ (s : State) (c : Nat) (q : TaskRef) (l : Launch),
    let x := s.ctx c
    let t := l.tasks.getD q.task 0
    x.task = some q → s.launchOf q.launch = some l → x.stat = .staging → s.vacated c = true → l.stage = 2 →
    (∀ e, (l.inputsOf q.task)[x.staged]? = some e → l.produced (fld e 128 32) = true → fld e 32 32 % 64 = 0 →
      (∀ p ∈ pagesOf (fld e 64 64) (fld e 32 32), ∃ pa, s.reach (c / 4) x.spid p Need.counted = .at pa ∧ s.asleep pa = false) →
      (∀ i, i < fld e 32 32 / 64 → marksHit s.marks (s.paOf (c / 4) x.spid (fld e 64 64 + 64 * i)) 64 = false) →
      s.boundHit (c / 4) x.spid (fld e 64 64) (fld e 32 32) = false →
      ∃ u, exec (.stagingCopy c) s = .next u ∧ (u.ctx c).staged = x.staged + 1 ∧ (u.ctx c).ttagOf (fld e 0 6) = Fmt.ofCodeRaw (fld e 8 5) ∧
        ∀ i, i < fld e 32 32 → Mem.get (u.core (c / 4)).tile (x.tileAt (fld e 0 6) 0 + i) =
          Mem.get s.mem (s.paOf (c / 4) x.spid (fld e 64 64 + 64 * (i / 64)) + i % 64)) ∧
    (x.staged = (l.inputsOf q.task).length → ∃ u m, exec (.taskStart c) s = .next u ∧ (u.ctx c).stat = .ready ∧
      (u.ctx c).pc = BitVec.ofNat 64 (fld t 320 64) ∧ (u.ctx c).budget = BitVec.ofNat 32 (fld t 96 32) ∧
      (∀ r, 1 ≤ r → (u.ctx c).xreg r = if r ≤ fld t 88 8 then NMap.get 0 l.args (16 * q.task + (r - 1)) else 0) ∧
      u.launchOf l.id = some m ∧ m.stat q.task = .running c)) ∧
  (∀ (s : State) (core j : Nat), 1024 ≤ (s.core core).run →
    [1, 2, 3].find? (fun j => (s.core core).ready.contains (((s.core core).width + j) % 4)) = some j → ∃ u, exec (.runLimit core) s = .next u ∧
      (u.core core).width = ((s.core core).width + j) % 4 ∧ (u.core core).run = 0 ∧ u.ctxs = s.ctxs) ∧
  (∀ (s : State) (spid : Nat), spid ∈ s.quiescing → s.spaceAway spid = false →
    ∃ u, exec (.quiescePerformed spid) s = .next u ∧ spid ∉ u.quiescing ∧
    (∀ k, ∀ m ∈ (u.core k).cmds, m.spid ≠ spid) ∧ (∀ e ∈ u.tlbs, e.spid ≠ spid) ∧ (∀ v ∈ u.saved, v.spid ≠ spid) ∧
    (∀ p ∈ u.pageReqs, p.1 ≠ spid) ∧ ∀ c, (s.ctx c).spid = spid → (u.ctx c).task = none) ∧
  ∀ (s : State) (val : Word), (fld val 0 12 ≠ 0 → s.quiescing = [] →
      exec (.quiesce val) s = .next { s with quiescing := [fld val 0 12] }) ∧
    (fld val 0 12 = 0 ∨ s.quiescing ≠ [] → exec (.quiesce val) s = .next s)

/-! ## Events: statements, errors, the module -/

/-- Statements (R356, R363 to R370, R373): a SACK above the last commit, of a statement that the ring does not hold back,
commits its statement's counters, and another changes nothing; a statement takes the next SEQ and stands in the host's ring;
a report stands at its reply address; with no statement to present the counters start at zero and the BOOT statement is
emitted; after an approved import from another device the counters of the listed regions have the statement's values; an orderly
shutdown closes the device and, with no launch left, is final; a reset keeps the fuses and the host's memory and nothing else. The
model's choices here: an import records as raised the regions whose counters it changed, its DEVID is not this device's, and a
shutdown closes at once (log 40); the host's memory is kept over a reset (log 42). -/
def Obligations.EventsStatements : Prop :=
  ∀ s : State,
    (∀ (val : Word) (e : Nat × NMap Nat × NMap Nat), s.stmts.find? (fun e => e.1 == val.toNat) = some e → s.committed < val.toNat →
      s.heldBack val.toNat = false →
      ∃ u, exec (.sack val) s = .next u ∧ u.committed = val.toNat ∧ u.cadmit = e.2.1 ∧ u.cbeat = e.2.2 ∧
        u.bootStep = if s.bootStep = 8 then 9 else s.bootStep) ∧
    (∀ val : Word, (s.stmts.find? (fun e => e.1 == val.toNat) = none ∨ val.toNat ≤ s.committed ∨ s.heldBack val.toNat = true) →
      exec (.sack val) s = .next s) ∧
    (s.open' = true ∨ s.outOfService = true → exec .statementRequest s = .next (s.emit 2 0 0) ∧
      ∀ (launch addr : Word) (nonce : BitVec 256), addr.toNat + 3632 ≤ 2 ^ 44 → ∃ u, exec (.attestationReport launch addr nonce) s = .next u ∧
        u.readHost addr.toNat 256 = reportBody s launch nonce ∧ u.ctxs = s.ctxs ∧ u.stmtSeq = s.stmtSeq) ∧
    (s.open' = true → exec .migrationOut s = .next (s.emit 3 0 0) ∧
      ∃ u, exec .orderlyShutdown s = .next u ∧ u.closed = true ∧ (s.launches = [] → u.final = true)) ∧
    (∀ (kind : Nat) (launch : Word) (ref : BitVec 256), s.heldOut = [] →
      (s.mreg 0x198 - s.mreg 0x190).toNat < 2 ^ min (s.mreg 0x188).toNat 16 →
      let u := s.emit kind launch ref
      let body := stmtBody s kind launch ref
      u.stmtSeq = s.stmtSeq + 1 ∧ u.stmts = s.stmts ++ [(s.stmtSeq + 1, s.admitted, s.beat)] ∧ u.mreg 0x198 = s.mreg 0x198 + 1 ∧
        Mem.read u.mem (0x100000000000 + (s.mreg 0x180).toNat + 131072 * ((s.mreg 0x198).toNat % 2 ^ min (s.mreg 0x188).toNat 16)) body.length =
          body ∧ u.msix = s.msix ++ [1]) ∧
    (s.bootStep = 7 → s.outOfService = false → ∃ u, exec (.presentStatement 0) s = .next u ∧ u.admitted = [] ∧ u.beat = [] ∧ u.committed = 0 ∧ u.stmtSeq = 1 ∧
      u.bootStep = 8 ∧ (u.gapFlag = true ↔ s.gen ≠ 1)) ∧
    (∀ addr : Word,
      let bs := s.stmtAt addr.toNat
      let r := stmtRegions bs
      let raised (e : Nat × Nat × Nat) := decide (NMap.get 0 s.admitted e.1 < e.2.1) || decide (NMap.get 0 s.beat e.1 < e.2.2)
      s.open' = true → BitVec.ofNat 256 (leAt bs 32 32) ≠ Config.devid →
      Config.approvedDevice (BitVec.ofNat 256 (leAt bs 32 32)) = true → stmtGood bs = true →
      (leAt bs 6 1 = 3 ∨ leAt bs 6 1 = 4) →
      (∀ e ∈ r, NMap.get 0 s.admitted e.1 ≤ e.2.1 ∧ NMap.get 0 s.beat e.1 ≤ e.2.2 ∧ e.1 ∉ s.imported) →
      ∃ u, exec (.importStatement addr) s = .next u ∧ u.imported = s.imported ++ (r.filter raised).map (fun e => e.1) ∧ u.stmtSeq = s.stmtSeq + 1 ∧
        (∀ e ∈ r, (r.filter (fun f => f.1 == e.1)).length = 1 → NMap.get 0 u.admitted e.1 = e.2.1 ∧ NMap.get 0 u.beat e.1 = e.2.2) ∧
        ∀ g, g ∉ r.map (fun e => e.1) → NMap.get 0 u.admitted g = NMap.get 0 s.admitted g ∧ NMap.get 0 u.beat g = NMap.get 0 s.beat g) ∧
    ∃ u, exec .powerOnReset s = .next u ∧ u.gen = s.gen ∧ u.powered = true ∧ u.launches = [] ∧ u.ctxs = [] ∧ u.cores = [] ∧ u.bootStep = 0 ∧
      ∀ a, Mem.get u.mem a = if 0x100000000000 ≤ a then Mem.get s.mem a else 0

/-- Errors and the module (R350 to R357, R364, R372, R380): what a corrected and an uncorrected error in each structure does;
an event's record stands in the ring with its sequence number, or is counted lost; a machine check stops its processor; a
failed edge takes the device out of service; a stack in self-refresh holds accesses until its exit; flow, heat and power. The model's
choices here (log 41): how `unit` and bit 63 of ADDR say who met an error and in what, the overflow area's errors by `overflowAt` and
its places (log 3), the zero of a Wharf error that no window holds, EVBASE zero counting events as lost, the limits of heat, flow and
power as exclusive ones, and a patrol scrub without an effect of its own. -/
def Obligations.EventsModule : Prop :=
  ∀ s : State,
    (∀ (n : BitVec 8) (c : Nat) (addr : Word), c < 1536 → 1 ≤ n.toNat → n.toNat ≤ 7 → n ≠ 1 ∨ bit addr 63 = false →
      exec (.errorDetected n false c addr) s = .next (s.corrected n.toNat addr (s.metBy c) (c / 4))) ∧
    (∀ (u : Nat) (addr : Word), exec (.errorDetected 9 false u addr) s = .next s) ∧
    (∀ (c : Nat) (addr : Word), c < 1536 → bit addr 63 = true → 0x800000 ≤ fld addr 0 26 →
      let die := fld addr 26 2
      let base := fld addr 0 26 / 64 * 64
      let place := Config.overflowPlace die base
      let holds (l : Launch) : Prop := (recWin l.info die).1 ≤ base ∧ base < (recWin l.info die).1 + (recWin l.info die).2
      exec (.errorDetected 1 false c addr) s = .next (s.corrected 1 place (s.metBy c) (c / 4)) ∧
      ∃ u, exec (.errorDetected 1 true c addr) s = .next u ∧
        ((∀ l ∈ s.launches, ¬ holds l) → (∀ i, i < 8 → u.var die (base + 8 * i) = 0) ∧
          u.launches = (s.event 1 1 place (s.metBy c) (c / 4)).launches) ∧
        ((∃ l ∈ s.launches, holds l) → (∀ i, i < 8 → base + 8 * i ∈ (u.wharf die).lost) ∧ ∀ l ∈ u.launches, holds l → 3 ≤ l.stage)) ∧
    (∀ (c : Nat) (q : TaskRef), c < 1536 → (s.ctx c).task = some q → s.metBy c = q.launch) ∧
    (∀ (who spid : Nat) (l : Launch), who < 2048 → 1 ≤ spid → s.launches.find? (fun l => l.spid == spid) = some l →
      s.metBy (who + 2048 * spid) = l.id) ∧
    (∀ (c : Nat) (addr : Word), c < 1536 →
      let a := addr.toNat
      let l := s.metBy c
      let rec' (n : Nat) (t : State) := t.event n 1 addr l (c / 4)
      (inHbm a = true → ∃ t, exec (.errorDetected 1 true c addr) s = .next (rec' 1 t) ∧ marksHit t.marks a 1 = true ∧
        ∀ x, x / 64 ≠ a / 64 → Mem.get t.mem x = Mem.get s.mem x) ∧
      (a < 2 ^ 21 → ∃ t, exec (.errorDetected 2 true c addr) s = .next (rec' 2 t) ∧ marksHit (t.core (c / 4)).tmarks a 1 = true ∧
        ∀ x, x / 64 ≠ a / 64 → Mem.get (t.core (c / 4)).tile x = Mem.get (s.core (c / 4)).tile x) ∧
      (a < 6291456 → ∃ t, exec (.errorDetected 3 true c addr) s = .next (rec' 3 t) ∧ marksHit (t.core (c / 4)).hmarks a 1 = true ∧
        ∀ x, x / 64 ≠ a / 64 → Mem.get (t.core (c / 4)).hold x = Mem.get (s.core (c / 4)).hold x) ∧
      (a < 32 → ∃ t, exec (.errorDetected 4 true c addr) s = .next (rec' 4 t) ∧ ((t.core (c / 4)).plane a).taint = true ∧
        (∀ j, j ≠ a → (t.core (c / 4)).plane j = (s.core (c / 4)).plane j) ∧
        ∀ q, s.launchOf l = some q → ∃ m, t.launchOf l = some m ∧ m.verdict = 2) ∧
      (∃ t, exec (.errorDetected 5 true c addr) s = .next (rec' 5 t) ∧ t = s.updCtx c (fun x => spoilBeat x a)) ∧
      (∃ t, exec (.errorDetected 6 true c addr) s = .next (rec' 6 t) ∧ t = s.updCtx c spoilWbeat) ∧
      (∀ q, bit addr 63 = false → (s.ctx c).task = some q →
        exec (.errorDetected 7 true c addr) s = .next ((endTainted s c 0x10).event 7 2 0 q.launch (c / 4))) ∧
      (bit addr 63 = false → (s.ctx c).task = none → exec (.errorDetected 7 true c addr) s = .next (s.event 7 1 addr 0 0xFFFF)) ∧
      (∀ v, bit addr 63 = true → s.saved.find? (fun v => v.c == c && v.live && v.addr == fld addr 0 63) = some v →
        exec (.errorDetected 7 true c addr) s = .next (loseSaved s v))) ∧
    (∀ (die : Nat) (addr : Word), die < 4 → bit addr 63 = false → fld addr 0 26 < 0x800000 →
      let off := addr.toNat
      let holds (l : Launch) : Prop := (recWin l.info die).1 ≤ off ∧ off < (recWin l.info die).1 + (recWin l.info die).2
      ∃ u, exec (.errorDetected 8 true die addr) s = .next u ∧
        ((∀ l ∈ s.launches, ¬ holds l) → u.var die (off / 8 * 8) = 0) ∧
        ((∃ l ∈ s.launches, holds l) → off / 8 * 8 ∈ (u.wharf die).lost ∧ ∀ l ∈ u.launches, holds l → 3 ≤ l.stage)) ∧
    (∀ (die : Nat) (addr : Word) (op : WOp), die < 4 → bit addr 63 = true → op.id = fld addr 0 63 →
      op ∈ (s.wharf die).inq ∨ (op ∈ (s.wharf die).log ∧ s.owed op = true) → ∃ u, exec (.errorDetected 8 true die addr) s = .next u ∧
        ∀ l, s.launchOf op.task.launch = some l → ∃ m, u.launchOf op.task.launch = some m ∧ m.verdict = 2 ∧ 3 ≤ m.stage) ∧
    (∀ (port : Nat) (addr : Word), exec (.errorDetected 9 true port addr) s = exec (.linkDown port) s ∧
      exec (.errorDetected 0x0B true port addr) s = exec (.machineCheck port) s) ∧
    (∀ (n k : Nat) (addr l : Word) (m : Nat), n < 256 → k < 256 → m < 65536 →
      let base := (s.mreg 0x200).toNat
      let tail := (s.mreg 0x210).toNat
      let t := s.event n k addr l m
      (base ≠ 0 → tail < 2 ^ min (s.mreg 0x208).toNat 16 → s.asleep (base + 32 * tail) = false →
        Mem.readLE t.mem (base + 32 * tail) 8 = n + 256 * k + 65536 * m + 2 ^ 32 * s.evSeq.toNat ∧
        Mem.readLE t.mem (base + 32 * tail + 16) 8 = l.toNat ∧ Mem.readLE t.mem (base + 32 * tail + 24) 8 = addr.toNat ∧
        t.mreg 0x210 = BitVec.ofNat 64 (tail + 1) ∧ t.evSeq = s.evSeq + 1 ∧ t.msix = s.msix ++ [2]) ∧
      (base = 0 ∨ 2 ^ min (s.mreg 0x208).toNat 16 ≤ tail → t = s.setMreg 0x218 (s.mreg 0x218 + 1))) ∧
    exec .patrolScrub s = .next s ∧
    (∀ m, 384 ≤ m → m < 400 → ∃ t : State, exec (.machineCheck m) s = .next (t.event 0x0B 1 0 0 m) ∧ m ∈ t.gpStopped ∧ t.mem = s.mem) ∧
    (∀ k, k < 24 → ∃ t : State, exec (.machineCheck (400 + k)) s = .next (t.event 0x0C 1 0 0 (400 + k)) ∧ (t.keeper k).stopped = true ∧
      (t.keeper k).accs = [] ∧ (t.keeper k).buf = [] ∧ k ∈ t.deadPorts) ∧
    (∀ pair : BitVec 4, pair ∈ [0b0001#4, 0b1011, 0b0010, 0b0111] → s.deadEdges.contains pair = false →
      ∃ u, exec (.edgeFailure pair) s = .next u ∧ u.mreg 0x10 = 4 ∧ u.closed = true ∧ pair ∈ u.deadEdges ∧
        ∀ l ∈ u.launches, l.stmt = 0 → l.stage ≠ 5 → 3 ≤ l.stage ∧ l.verdict = 2) ∧
    (∀ k, k < 8 → ∃ u, exec (.selfRefreshEntry k) s = .next u ∧ ∀ j, u.selfRef.getLsbD j = (s.selfRef.getLsbD j || decide (j = k))) ∧
    (∀ k, k < 8 → s.selfRef.getLsbD k = true → NMap.get [] s.srHeld k = [] →
      ∃ u, exec (.selfRefreshExit k) s = .next u ∧ ∀ j, u.selfRef.getLsbD j = (s.selfRef.getLsbD j && !decide (j = k))) ∧
    (∀ i ∈ [Instr.coolantFlowLow, .powerLoss], exec i s = .next { s with powered := false, launches := [] }) ∧
    (∀ junction hbm cool : Word,
      let above (n : Nat) := ∃ d, d < 4 ∧ n < fld junction (16 * d) 16
      (above 1150 → ∃ u, exec (.overTemperature junction (hbm, cool)) s = .next u ∧ u.powered = false ∧ u.launches = []) ∧
      (¬ above 1150 → ∃ u, exec (.overTemperature junction (hbm, cool)) s = .next u ∧ u.powered = s.powered ∧
        u.mreg 0x500 = junction ∧ u.mreg 0x508 = hbm ∧ (u.mreg 0x520).toNat = cool.toNat % 2 ^ 32 ∧
        (u.throttled = true ↔ above 1000 ∨ 400 < fld cool 0 16 ∨ (s.mreg 0x518).toNat < (s.mreg 0x510).toNat))) ∧
    ∀ watts, watts < 65536 → ∃ u, exec (.powerCapExceeded watts) s = .next u ∧ u.mreg 0x510 = BitVec.ofNat 64 watts ∧
      (u.throttled = true ↔
        (∃ d, d < 4 ∧ 1000 < fld (s.mreg 0x500) (16 * d) 16) ∨ 400 < fld (s.mreg 0x520) 0 16 ∨ (s.mreg 0x518).toNat < watts)
end

