-- ==== Sys2Proof/Laws/Exec.lean ====
section
/-! SUPPORT. Each arm of exec as an equation: the meaning of every instruction and event by its name. -/

namespace Sys2Proof.Machine

@[simp] theorem exec_move g src d s : exec (.move g src d) s = execMove g src d s := rfl
@[simp] theorem exec_nop s : exec .nop s = execNop s := rfl
@[simp] theorem exec_iaAdd g src u s : exec (.iaAdd g src u) s = execIaAdd g src u s := rfl
@[simp] theorem exec_iaSub g src u s : exec (.iaSub g src u) s = execIaSub g src u s := rfl
@[simp] theorem exec_iaAddw g src u s : exec (.iaAddw g src u) s = execIaAddw g src u s := rfl
@[simp] theorem exec_iaSubw g src u s : exec (.iaSubw g src u) s = execIaSubw g src u s := rfl
@[simp] theorem exec_iaAnd g src u s : exec (.iaAnd g src u) s = execIaAnd g src u s := rfl
@[simp] theorem exec_iaOr g src u s : exec (.iaOr g src u) s = execIaOr g src u s := rfl
@[simp] theorem exec_iaXor g src u s : exec (.iaXor g src u) s = execIaXor g src u s := rfl
@[simp] theorem exec_iaAndn g src u s : exec (.iaAndn g src u) s = execIaAndn g src u s := rfl
@[simp] theorem exec_iaSll g src u s : exec (.iaSll g src u) s = execIaSll g src u s := rfl
@[simp] theorem exec_iaSrl g src u s : exec (.iaSrl g src u) s = execIaSrl g src u s := rfl
@[simp] theorem exec_iaSra g src u s : exec (.iaSra g src u) s = execIaSra g src u s := rfl
@[simp] theorem exec_iaRor g src u s : exec (.iaRor g src u) s = execIaRor g src u s := rfl
@[simp] theorem exec_iaMin g src u s : exec (.iaMin g src u) s = execIaMin g src u s := rfl
@[simp] theorem exec_iaMax g src u s : exec (.iaMax g src u) s = execIaMax g src u s := rfl
@[simp] theorem exec_iaMinu g src u s : exec (.iaMinu g src u) s = execIaMinu g src u s := rfl
@[simp] theorem exec_iaMaxu g src u s : exec (.iaMaxu g src u) s = execIaMaxu g src u s := rfl
@[simp] theorem exec_iaMul g src u s : exec (.iaMul g src u) s = execIaMul g src u s := rfl
@[simp] theorem exec_iaMulu g src u s : exec (.iaMulu g src u) s = execIaMulu g src u s := rfl
@[simp] theorem exec_iaMulsu g src u s : exec (.iaMulsu g src u) s = execIaMulsu g src u s := rfl
@[simp] theorem exec_iaMulw g src u s : exec (.iaMulw g src u) s = execIaMulw g src u s := rfl
@[simp] theorem exec_iaEq g src u s : exec (.iaEq g src u) s = execIaEq g src u s := rfl
@[simp] theorem exec_iaLt g src u s : exec (.iaLt g src u) s = execIaLt g src u s := rfl
@[simp] theorem exec_iaLtu g src u s : exec (.iaLtu g src u) s = execIaLtu g src u s := rfl
@[simp] theorem exec_iaTst g src u s : exec (.iaTst g src u) s = execIaTst g src u s := rfl
@[simp] theorem exec_iaClz g src u s : exec (.iaClz g src u) s = execIaClz g src u s := rfl
@[simp] theorem exec_iaCtz g src u s : exec (.iaCtz g src u) s = execIaCtz g src u s := rfl
@[simp] theorem exec_iaPopc g src u s : exec (.iaPopc g src u) s = execIaPopc g src u s := rfl
@[simp] theorem exec_iaBswap g src u s : exec (.iaBswap g src u) s = execIaBswap g src u s := rfl
@[simp] theorem exec_iaSext g src u s : exec (.iaSext g src u) s = execIaSext g src u s := rfl
@[simp] theorem exec_iaZext g src u s : exec (.iaZext g src u) s = execIaZext g src u s := rfl
@[simp] theorem exec_iaBfxu g src u s : exec (.iaBfxu g src u) s = execIaBfxu g src u s := rfl
@[simp] theorem exec_iaBfxs g src u s : exec (.iaBfxs g src u) s = execIaBfxs g src u s := rfl
@[simp] theorem exec_iaCat g src u s : exec (.iaCat g src u) s = execIaCat g src u s := rfl
@[simp] theorem exec_iaLea g src u k s : exec (.iaLea g src u k) s = execIaLea g src u k s := rfl
@[simp] theorem exec_iaAddsat g src u s : exec (.iaAddsat g src u) s = execIaAddsat g src u s := rfl
@[simp] theorem exec_iaSubsat g src u s : exec (.iaSubsat g src u) s = execIaSubsat g src u s := rfl
@[simp] theorem exec_sfFadd g src s : exec (.sfFadd g src) s = execSfFadd g src s := rfl
@[simp] theorem exec_sfFsub g src s : exec (.sfFsub g src) s = execSfFsub g src s := rfl
@[simp] theorem exec_sfFmul g src s : exec (.sfFmul g src) s = execSfFmul g src s := rfl
@[simp] theorem exec_sfFmin g src s : exec (.sfFmin g src) s = execSfFmin g src s := rfl
@[simp] theorem exec_sfFmax g src s : exec (.sfFmax g src) s = execSfFmax g src s := rfl
@[simp] theorem exec_sfFeq g src s : exec (.sfFeq g src) s = execSfFeq g src s := rfl
@[simp] theorem exec_sfFlt g src s : exec (.sfFlt g src) s = execSfFlt g src s := rfl
@[simp] theorem exec_sfFle g src s : exec (.sfFle g src) s = execSfFle g src s := rfl
@[simp] theorem exec_sfFun g src s : exec (.sfFun g src) s = execSfFun g src s := rfl
@[simp] theorem exec_sfCvtw g src m s : exec (.sfCvtw g src m) s = execSfCvtw g src m s := rfl
@[simp] theorem exec_sfIcvt g src m s : exec (.sfIcvt g src m) s = execSfIcvt g src m s := rfl
@[simp] theorem exec_sfCvth g src m s : exec (.sfCvth g src m) s = execSfCvth g src m s := rfl
@[simp] theorem exec_sfCvtb g src m s : exec (.sfCvtb g src m) s = execSfCvtb g src m s := rfl
@[simp] theorem exec_sfExth g src s : exec (.sfExth g src) s = execSfExth g src s := rfl
@[simp] theorem exec_sfExtb g src s : exec (.sfExtb g src) s = execSfExtb g src s := rfl
@[simp] theorem exec_va0Fadd g src s : exec (.va0Fadd g src) s = execVa0Fadd g src s := rfl
@[simp] theorem exec_va0Fsub g src s : exec (.va0Fsub g src) s = execVa0Fsub g src s := rfl
@[simp] theorem exec_va0Fmul g src s : exec (.va0Fmul g src) s = execVa0Fmul g src s := rfl
@[simp] theorem exec_va0Fmin g src s : exec (.va0Fmin g src) s = execVa0Fmin g src s := rfl
@[simp] theorem exec_va0Fmax g src s : exec (.va0Fmax g src) s = execVa0Fmax g src s := rfl
@[simp] theorem exec_va0Fabs g src s : exec (.va0Fabs g src) s = execVa0Fabs g src s := rfl
@[simp] theorem exec_va0Fneg g src s : exec (.va0Fneg g src) s = execVa0Fneg g src s := rfl
@[simp] theorem exec_va0Fdot g src s : exec (.va0Fdot g src) s = execVa0Fdot g src s := rfl
@[simp] theorem exec_va0Feq g src s : exec (.va0Feq g src) s = execVa0Feq g src s := rfl
@[simp] theorem exec_va0Flt g src s : exec (.va0Flt g src) s = execVa0Flt g src s := rfl
@[simp] theorem exec_va0Fle g src s : exec (.va0Fle g src) s = execVa0Fle g src s := rfl
@[simp] theorem exec_va0Fun g src s : exec (.va0Fun g src) s = execVa0Fun g src s := rfl
@[simp] theorem exec_va0Add g src s : exec (.va0Add g src) s = execVa0Add g src s := rfl
@[simp] theorem exec_va0Sub g src s : exec (.va0Sub g src) s = execVa0Sub g src s := rfl
@[simp] theorem exec_va0Mul g src s : exec (.va0Mul g src) s = execVa0Mul g src s := rfl
@[simp] theorem exec_va0Min g src s : exec (.va0Min g src) s = execVa0Min g src s := rfl
@[simp] theorem exec_va0Max g src s : exec (.va0Max g src) s = execVa0Max g src s := rfl
@[simp] theorem exec_va0Abs g src s : exec (.va0Abs g src) s = execVa0Abs g src s := rfl
@[simp] theorem exec_va0Addsat g src s : exec (.va0Addsat g src) s = execVa0Addsat g src s := rfl
@[simp] theorem exec_va0Subsat g src s : exec (.va0Subsat g src) s = execVa0Subsat g src s := rfl
@[simp] theorem exec_va0Eq g src s : exec (.va0Eq g src) s = execVa0Eq g src s := rfl
@[simp] theorem exec_va0Lt g src s : exec (.va0Lt g src) s = execVa0Lt g src s := rfl
@[simp] theorem exec_va0Le g src s : exec (.va0Le g src) s = execVa0Le g src s := rfl
@[simp] theorem exec_va0Idot g src s : exec (.va0Idot g src) s = execVa0Idot g src s := rfl
@[simp] theorem exec_va0Sll g src s : exec (.va0Sll g src) s = execVa0Sll g src s := rfl
@[simp] theorem exec_va0Srl g src s : exec (.va0Srl g src) s = execVa0Srl g src s := rfl
@[simp] theorem exec_va0Sra g src s : exec (.va0Sra g src) s = execVa0Sra g src s := rfl
@[simp] theorem exec_va0And g src s : exec (.va0And g src) s = execVa0And g src s := rfl
@[simp] theorem exec_va0Or g src s : exec (.va0Or g src) s = execVa0Or g src s := rfl
@[simp] theorem exec_va0Xor g src s : exec (.va0Xor g src) s = execVa0Xor g src s := rfl
@[simp] theorem exec_va0Andn g src s : exec (.va0Andn g src) s = execVa0Andn g src s := rfl
@[simp] theorem exec_va0Cvt g src m s : exec (.va0Cvt g src m) s = execVa0Cvt g src m s := rfl
@[simp] theorem exec_va0Fma g src k s : exec (.va0Fma g src k) s = execVa0Fma g src k s := rfl
@[simp] theorem exec_va0Fms g src k s : exec (.va0Fms g src k) s = execVa0Fms g src k s := rfl
@[simp] theorem exec_va0Fnma g src k s : exec (.va0Fnma g src k) s = execVa0Fnma g src k s := rfl
@[simp] theorem exec_va0Fclamp g src k s : exec (.va0Fclamp g src k) s = execVa0Fclamp g src k s := rfl
@[simp] theorem exec_va0Iclamp g src k s : exec (.va0Iclamp g src k) s = execVa0Iclamp g src k s := rfl
@[simp] theorem exec_va0Sel g src m s : exec (.va0Sel g src m) s = execVa0Sel g src m s := rfl
@[simp] theorem exec_va1Fadd g src s : exec (.va1Fadd g src) s = execVa1Fadd g src s := rfl
@[simp] theorem exec_va1Fsub g src s : exec (.va1Fsub g src) s = execVa1Fsub g src s := rfl
@[simp] theorem exec_va1Fmul g src s : exec (.va1Fmul g src) s = execVa1Fmul g src s := rfl
@[simp] theorem exec_va1Fmin g src s : exec (.va1Fmin g src) s = execVa1Fmin g src s := rfl
@[simp] theorem exec_va1Fmax g src s : exec (.va1Fmax g src) s = execVa1Fmax g src s := rfl
@[simp] theorem exec_va1Fabs g src s : exec (.va1Fabs g src) s = execVa1Fabs g src s := rfl
@[simp] theorem exec_va1Fneg g src s : exec (.va1Fneg g src) s = execVa1Fneg g src s := rfl
@[simp] theorem exec_va1Fdot g src s : exec (.va1Fdot g src) s = execVa1Fdot g src s := rfl
@[simp] theorem exec_va1Feq g src s : exec (.va1Feq g src) s = execVa1Feq g src s := rfl
@[simp] theorem exec_va1Flt g src s : exec (.va1Flt g src) s = execVa1Flt g src s := rfl
@[simp] theorem exec_va1Fle g src s : exec (.va1Fle g src) s = execVa1Fle g src s := rfl
@[simp] theorem exec_va1Fun g src s : exec (.va1Fun g src) s = execVa1Fun g src s := rfl
@[simp] theorem exec_va1Add g src s : exec (.va1Add g src) s = execVa1Add g src s := rfl
@[simp] theorem exec_va1Sub g src s : exec (.va1Sub g src) s = execVa1Sub g src s := rfl
@[simp] theorem exec_va1Mul g src s : exec (.va1Mul g src) s = execVa1Mul g src s := rfl
@[simp] theorem exec_va1Min g src s : exec (.va1Min g src) s = execVa1Min g src s := rfl
@[simp] theorem exec_va1Max g src s : exec (.va1Max g src) s = execVa1Max g src s := rfl
@[simp] theorem exec_va1Abs g src s : exec (.va1Abs g src) s = execVa1Abs g src s := rfl
@[simp] theorem exec_va1Addsat g src s : exec (.va1Addsat g src) s = execVa1Addsat g src s := rfl
@[simp] theorem exec_va1Subsat g src s : exec (.va1Subsat g src) s = execVa1Subsat g src s := rfl
@[simp] theorem exec_va1Eq g src s : exec (.va1Eq g src) s = execVa1Eq g src s := rfl
@[simp] theorem exec_va1Lt g src s : exec (.va1Lt g src) s = execVa1Lt g src s := rfl
@[simp] theorem exec_va1Le g src s : exec (.va1Le g src) s = execVa1Le g src s := rfl
@[simp] theorem exec_va1Idot g src s : exec (.va1Idot g src) s = execVa1Idot g src s := rfl
@[simp] theorem exec_va1Sll g src s : exec (.va1Sll g src) s = execVa1Sll g src s := rfl
@[simp] theorem exec_va1Srl g src s : exec (.va1Srl g src) s = execVa1Srl g src s := rfl
@[simp] theorem exec_va1Sra g src s : exec (.va1Sra g src) s = execVa1Sra g src s := rfl
@[simp] theorem exec_va1And g src s : exec (.va1And g src) s = execVa1And g src s := rfl
@[simp] theorem exec_va1Or g src s : exec (.va1Or g src) s = execVa1Or g src s := rfl
@[simp] theorem exec_va1Xor g src s : exec (.va1Xor g src) s = execVa1Xor g src s := rfl
@[simp] theorem exec_va1Andn g src s : exec (.va1Andn g src) s = execVa1Andn g src s := rfl
@[simp] theorem exec_va1Cvt g src m s : exec (.va1Cvt g src m) s = execVa1Cvt g src m s := rfl
@[simp] theorem exec_va1Fma g src k s : exec (.va1Fma g src k) s = execVa1Fma g src k s := rfl
@[simp] theorem exec_va1Fms g src k s : exec (.va1Fms g src k) s = execVa1Fms g src k s := rfl
@[simp] theorem exec_va1Fnma g src k s : exec (.va1Fnma g src k) s = execVa1Fnma g src k s := rfl
@[simp] theorem exec_va1Fclamp g src k s : exec (.va1Fclamp g src k) s = execVa1Fclamp g src k s := rfl
@[simp] theorem exec_va1Iclamp g src k s : exec (.va1Iclamp g src k) s = execVa1Iclamp g src k s := rfl
@[simp] theorem exec_va1Sel g src m s : exec (.va1Sel g src m) s = execVa1Sel g src m s := rfl
@[simp] theorem exec_sfnExp2 g src s : exec (.sfnExp2 g src) s = execSfnExp2 g src s := rfl
@[simp] theorem exec_sfnLog2 g src s : exec (.sfnLog2 g src) s = execSfnLog2 g src s := rfl
@[simp] theorem exec_sfnExp g src s : exec (.sfnExp g src) s = execSfnExp g src s := rfl
@[simp] theorem exec_sfnLn g src s : exec (.sfnLn g src) s = execSfnLn g src s := rfl
@[simp] theorem exec_sfnRcp g src s : exec (.sfnRcp g src) s = execSfnRcp g src s := rfl
@[simp] theorem exec_sfnRsqrt g src s : exec (.sfnRsqrt g src) s = execSfnRsqrt g src s := rfl
@[simp] theorem exec_sfnSqrt g src s : exec (.sfnSqrt g src) s = execSfnSqrt g src s := rfl
@[simp] theorem exec_sfnTanh g src s : exec (.sfnTanh g src) s = execSfnTanh g src s := rfl
@[simp] theorem exec_sfnLogistic g src s : exec (.sfnLogistic g src) s = execSfnLogistic g src s := rfl
@[simp] theorem exec_sfnExp2S g src s : exec (.sfnExp2S g src) s = execSfnExp2S g src s := rfl
@[simp] theorem exec_sfnExpS g src s : exec (.sfnExpS g src) s = execSfnExpS g src s := rfl
@[simp] theorem exec_sfnRcpS g src s : exec (.sfnRcpS g src) s = execSfnRcpS g src s := rfl
@[simp] theorem exec_xchRotr g src s : exec (.xchRotr g src) s = execXchRotr g src s := rfl
@[simp] theorem exec_xchShfr g src s : exec (.xchShfr g src) s = execXchShfr g src s := rfl
@[simp] theorem exec_xchXorr g src s : exec (.xchXorr g src) s = execXchXorr g src s := rfl
@[simp] theorem exec_xchTr16 g src s : exec (.xchTr16 g src) s = execXchTr16 g src s := rfl
@[simp] theorem exec_xchRotc g src s : exec (.xchRotc g src) s = execXchRotc g src s := rfl
@[simp] theorem exec_xchShfc g src s : exec (.xchShfc g src) s = execXchShfc g src s := rfl
@[simp] theorem exec_xchXorc g src s : exec (.xchXorc g src) s = execXchXorc g src s := rfl
@[simp] theorem exec_xchBcrow g src s : exec (.xchBcrow g src) s = execXchBcrow g src s := rfl
@[simp] theorem exec_xchBccol g src s : exec (.xchBccol g src) s = execXchBccol g src s := rfl
@[simp] theorem exec_xchBclane g src s : exec (.xchBclane g src) s = execXchBclane g src s := rfl
@[simp] theorem exec_xchPermr g src k s : exec (.xchPermr g src k) s = execXchPermr g src k s := rfl
@[simp] theorem exec_xchPermc g src k s : exec (.xchPermc g src k) s = execXchPermc g src k s := rfl
@[simp] theorem exec_redCsumPs g src n s : exec (.redCsumPs g src n) s = execRedCsumPs g src n s := rfl
@[simp] theorem exec_redCmaxPs g src n s : exec (.redCmaxPs g src n) s = execRedCmaxPs g src n s := rfl
@[simp] theorem exec_redRsum g src s : exec (.redRsum g src) s = execRedRsum g src s := rfl
@[simp] theorem exec_redRmax g src s : exec (.redRmax g src) s = execRedRmax g src s := rfl
@[simp] theorem exec_redRscan g src s : exec (.redRscan g src) s = execRedRscan g src s := rfl
@[simp] theorem exec_redCscan g src s : exec (.redCscan g src) s = execRedCscan g src s := rfl
@[simp] theorem exec_redCsum g src s : exec (.redCsum g src) s = execRedCsum g src s := rfl
@[simp] theorem exec_redCmax g src s : exec (.redCmax g src) s = execRedCmax g src s := rfl
@[simp] theorem exec_lsLd8u g src s : exec (.lsLd8u g src) s = execLsLd8u g src s := rfl
@[simp] theorem exec_lsLd16u g src s : exec (.lsLd16u g src) s = execLsLd16u g src s := rfl
@[simp] theorem exec_lsLd32u g src s : exec (.lsLd32u g src) s = execLsLd32u g src s := rfl
@[simp] theorem exec_lsLd64 g src s : exec (.lsLd64 g src) s = execLsLd64 g src s := rfl
@[simp] theorem exec_lsLd8s g src s : exec (.lsLd8s g src) s = execLsLd8s g src s := rfl
@[simp] theorem exec_lsLd16s g src s : exec (.lsLd16s g src) s = execLsLd16s g src s := rfl
@[simp] theorem exec_lsLd32s g src s : exec (.lsLd32s g src) s = execLsLd32s g src s := rfl
@[simp] theorem exec_lsSt8 g src s : exec (.lsSt8 g src) s = execLsSt8 g src s := rfl
@[simp] theorem exec_lsSt16 g src s : exec (.lsSt16 g src) s = execLsSt16 g src s := rfl
@[simp] theorem exec_lsSt32 g src s : exec (.lsSt32 g src) s = execLsSt32 g src s := rfl
@[simp] theorem exec_lsSt64 g src s : exec (.lsSt64 g src) s = execLsSt64 g src s := rfl
@[simp] theorem exec_lsVld g src s : exec (.lsVld g src) s = execLsVld g src s := rfl
@[simp] theorem exec_lsVst g src s : exec (.lsVst g src) s = execLsVst g src s := rfl
@[simp] theorem exec_lsBerth g src s : exec (.lsBerth g src) s = execLsBerth g src s := rfl
@[simp] theorem exec_strBindf g src n s : exec (.strBindf g src n) s = execStrBindf g src n s := rfl
@[simp] theorem exec_strBindd g src n s : exec (.strBindd g src n) s = execStrBindd g src n s := rfl
@[simp] theorem exec_mxPush g src s : exec (.mxPush g src) s = execMxPush g src s := rfl
@[simp] theorem exec_mxShift g src s : exec (.mxShift g src) s = execMxShift g src s := rfl
@[simp] theorem exec_mxAcc g src s : exec (.mxAcc g src) s = execMxAcc g src s := rfl
@[simp] theorem exec_mxPacc g src s : exec (.mxPacc g src) s = execMxPacc g src s := rfl
@[simp] theorem exec_mxSacc g src s : exec (.mxSacc g src) s = execMxSacc g src s := rfl
@[simp] theorem exec_mxDrain g src s : exec (.mxDrain g src) s = execMxDrain g src s := rfl
@[simp] theorem exec_mxHpset g src s : exec (.mxHpset g src) s = execMxHpset g src s := rfl
@[simp] theorem exec_mxRmask g src s : exec (.mxRmask g src) s = execMxRmask g src s := rfl
@[simp] theorem exec_mxCmask g src s : exec (.mxCmask g src) s = execMxCmask g src s := rfl
@[simp] theorem exec_mxAccxld g src s : exec (.mxAccxld g src) s = execMxAccxld g src s := rfl
@[simp] theorem exec_mxAccxst g src s : exec (.mxAccxst g src) s = execMxAccxst g src s := rfl
@[simp] theorem exec_mxMdq g src s : exec (.mxMdq g src) s = execMxMdq g src s := rfl
@[simp] theorem exec_wrCfg g src s : exec (.wrCfg g src) s = execWrCfg g src s := rfl
@[simp] theorem exec_wrLoad g src s : exec (.wrLoad g src) s = execWrLoad g src s := rfl
@[simp] theorem exec_wrBeat g src s : exec (.wrBeat g src) s = execWrBeat g src s := rfl
@[simp] theorem exec_wrLeaf g src s : exec (.wrLeaf g src) s = execWrLeaf g src s := rfl
@[simp] theorem exec_synLd g src s : exec (.synLd g src) s = execSynLd g src s := rfl
@[simp] theorem exec_synSt g src s : exec (.synSt g src) s = execSynSt g src s := rfl
@[simp] theorem exec_synAdd g src s : exec (.synAdd g src) s = execSynAdd g src s := rfl
@[simp] theorem exec_synFadd g src s : exec (.synFadd g src) s = execSynFadd g src s := rfl
@[simp] theorem exec_synMin g src s : exec (.synMin g src) s = execSynMin g src s := rfl
@[simp] theorem exec_synMax g src s : exec (.synMax g src) s = execSynMax g src s := rfl
@[simp] theorem exec_synMinu g src s : exec (.synMinu g src) s = execSynMinu g src s := rfl
@[simp] theorem exec_synMaxu g src s : exec (.synMaxu g src) s = execSynMaxu g src s := rfl
@[simp] theorem exec_synAnd g src s : exec (.synAnd g src) s = execSynAnd g src s := rfl
@[simp] theorem exec_synOr g src s : exec (.synOr g src) s = execSynOr g src s := rfl
@[simp] theorem exec_synXor g src s : exec (.synXor g src) s = execSynXor g src s := rfl
@[simp] theorem exec_synSwap g src s : exec (.synSwap g src) s = execSynSwap g src s := rfl
@[simp] theorem exec_synArrive g src s : exec (.synArrive g src) s = execSynArrive g src s := rfl
@[simp] theorem exec_synExpect g src s : exec (.synExpect g src) s = execSynExpect g src s := rfl
@[simp] theorem exec_synWait g src s : exec (.synWait g src) s = execSynWait g src s := rfl
@[simp] theorem exec_synTwait g src s : exec (.synTwait g src) s = execSynTwait g src s := rfl
@[simp] theorem exec_synCas g src k s : exec (.synCas g src k) s = execSynCas g src k s := rfl
@[simp] theorem exec_synCwait g src s : exec (.synCwait g src) s = execSynCwait g src s := rfl
@[simp] theorem exec_synCinc g src s : exec (.synCinc g src) s = execSynCinc g src s := rfl
@[simp] theorem exec_synArm g src s : exec (.synArm g src) s = execSynArm g src s := rfl
@[simp] theorem exec_synCreset g src s : exec (.synCreset g src) s = execSynCreset g src s := rfl
@[simp] theorem exec_synCresetF g src s : exec (.synCresetF g src) s = execSynCresetF g src s := rfl
@[simp] theorem exec_synBatch g src s : exec (.synBatch g src) s = execSynBatch g src s := rfl
@[simp] theorem exec_synSend g src s : exec (.synSend g src) s = execSynSend g src s := rfl
@[simp] theorem exec_synRecv g src s : exec (.synRecv g src) s = execSynRecv g src s := rfl
@[simp] theorem exec_synPset g src s : exec (.synPset g src) s = execSynPset g src s := rfl
@[simp] theorem exec_synColl g src s : exec (.synColl g src) s = execSynColl g src s := rfl
@[simp] theorem exec_engTld g src s : exec (.engTld g src) s = execEngTld g src s := rfl
@[simp] theorem exec_engTst g src s : exec (.engTst g src) s = execEngTst g src s := rfl
@[simp] theorem exec_engHld g src s : exec (.engHld g src) s = execEngHld g src s := rfl
@[simp] theorem exec_engWait g src s : exec (.engWait g src) s = execEngWait g src s := rfl
@[simp] theorem exec_engTcvt g src m s : exec (.engTcvt g src m) s = execEngTcvt g src m s := rfl
@[simp] theorem exec_engAq g src s : exec (.engAq g src) s = execEngAq g src s := rfl
@[simp] theorem exec_engPeerwr g src s : exec (.engPeerwr g src) s = execEngPeerwr g src s := rfl
@[simp] theorem exec_engPeerrd g src s : exec (.engPeerrd g src) s = execEngPeerrd g src s := rfl
@[simp] theorem exec_engNmFuse g src s : exec (.engNmFuse g src) s = execEngNmFuse g src s := rfl
@[simp] theorem exec_engNmSadd g src s : exec (.engNmSadd g src) s = execEngNmSadd g src s := rfl
@[simp] theorem exec_engNmRed g src s : exec (.engNmRed g src) s = execEngNmRed g src s := rfl
@[simp] theorem exec_engNmFill g src s : exec (.engNmFill g src) s = execEngNmFill g src s := rfl
@[simp] theorem exec_engNmCopy g src s : exec (.engNmCopy g src) s = execEngNmCopy g src s := rfl
@[simp] theorem exec_ctlJmp g src s : exec (.ctlJmp g src) s = execCtlJmp g src s := rfl
@[simp] theorem exec_ctlBr g src s : exec (.ctlBr g src) s = execCtlBr g src s := rfl
@[simp] theorem exec_ctlCall g src s : exec (.ctlCall g src) s = execCtlCall g src s := rfl
@[simp] theorem exec_ctlCallr g src s : exec (.ctlCallr g src) s = execCtlCallr g src s := rfl
@[simp] theorem exec_ctlEnd g src s : exec (.ctlEnd g src) s = execCtlEnd g src s := rfl
@[simp] theorem exec_ctlSys g src s : exec (.ctlSys g src) s = execCtlSys g src s := rfl
@[simp] theorem exec_ctlBrk g src s : exec (.ctlBrk g src) s = execCtlBrk g src s := rfl
@[simp] theorem exec_ctlIfence g src s : exec (.ctlIfence g src) s = execCtlIfence g src s := rfl
@[simp] theorem exec_ctlLoop g src l s : exec (.ctlLoop g src l) s = execCtlLoop g src l s := rfl
@[simp] theorem exec_ctlLoopend g src l s : exec (.ctlLoopend g src l) s = execCtlLoopend g src l s := rfl
@[simp] theorem exec_ctlRetag g src s : exec (.ctlRetag g src) s = execCtlRetag g src s := rfl
@[simp] theorem exec_ctlRdsr g src s : exec (.ctlRdsr g src) s = execCtlRdsr g src s := rfl
@[simp] theorem exec_ctlWrsr g src s : exec (.ctlWrsr g src) s = execCtlWrsr g src s := rfl
@[simp] theorem exec_ctlQmark g src s : exec (.ctlQmark g src) s = execCtlQmark g src s := rfl
@[simp] theorem exec_ctlFence g src sc s : exec (.ctlFence g src sc) s = execCtlFence g src sc s := rfl
@[simp] theorem exec_ctlQuiesce g src s : exec (.ctlQuiesce g src) s = execCtlQuiesce g src s := rfl
@[simp] theorem exec_bundleFetch c addr s : exec (.bundleFetch c addr) s = execBundleFetch c addr s := rfl
@[simp] theorem exec_resultLanding c s : exec (.resultLanding c) s = execResultLanding c s := rfl
@[simp] theorem exec_berthReply c fid s : exec (.berthReply c fid) s = execBerthReply c fid s := rfl
@[simp] theorem exec_berthLanding c s : exec (.berthLanding c) s = execBerthLanding c s := rfl
@[simp] theorem exec_endpointTimeout c s : exec (.endpointTimeout c) s = execEndpointTimeout c s := rfl
@[simp] theorem exec_deadline c s : exec (.deadline c) s = execDeadline c s := rfl
@[simp] theorem exec_checkpointOverdue c s : exec (.checkpointOverdue c) s = execCheckpointOverdue c s := rfl
@[simp] theorem exec_engineSectorReturn core id sec s : exec (.engineSectorReturn core id sec) s = execEngineSectorReturn core id sec s := rfl
@[simp] theorem exec_sectorTimeout core id sec s : exec (.sectorTimeout core id sec) s = execSectorTimeout core id sec s := rfl
@[simp] theorem exec_wharfOperationPerform die id s : exec (.wharfOperationPerform die id) s = execWharfOperationPerform die id s := rfl
@[simp] theorem exec_wharfReply c fid s : exec (.wharfReply c fid) s = execWharfReply c fid s := rfl
@[simp] theorem exec_twaitTimeout die id s : exec (.twaitTimeout die id) s = execTwaitTimeout die id s := rfl
@[simp] theorem exec_batchRecordPerform core id rec s : exec (.batchRecordPerform core id rec) s = execBatchRecordPerform core id rec s := rfl
@[simp] theorem exec_messageArrival msg s : exec (.messageArrival msg) s = execMessageArrival msg s := rfl
@[simp] theorem exec_messageAcknowledgement id s : exec (.messageAcknowledgement id) s = execMessageAcknowledgement id s := rfl
@[simp] theorem exec_receiveLanding c s : exec (.receiveLanding c) s = execReceiveLanding c s := rfl
@[simp] theorem exec_flitResend port s : exec (.flitResend port) s = execFlitResend port s := rfl
@[simp] theorem exec_linkDown port s : exec (.linkDown port) s = execLinkDown port s := rfl
@[simp] theorem exec_peerTransferArrival x s : exec (.peerTransferArrival x) s = execPeerTransferArrival x s := rfl
@[simp] theorem exec_packetHop pkt s : exec (.packetHop pkt) s = execPacketHop pkt s := rfl
@[simp] theorem exec_lkemit lk hart addr rec s : exec (.lkemit lk hart addr rec) s = execLkemit lk hart addr rec s := rfl
@[simp] theorem exec_lkcmdtail lk hart val s : exec (.lkcmdtail lk hart val) s = execLkcmdtail lk hart val s := rfl
@[simp] theorem exec_hartException lk hart mtvecZero s : exec (.hartException lk hart mtvecZero) s = execHartException lk hart mtvecZero s := rfl
@[simp] theorem exec_aqueductBlockArrival pkt s : exec (.aqueductBlockArrival pkt) s = execAqueductBlockArrival pkt s := rfl
@[simp] theorem exec_nearMemoryExecute core id s : exec (.nearMemoryExecute core id) s = execNearMemoryExecute core id s := rfl
@[simp] theorem exec_pageExpansion spid va s : exec (.pageExpansion spid va) s = execPageExpansion spid va s := rfl
@[simp] theorem exec_pageCompression spid va s : exec (.pageCompression spid va) s = execPageCompression spid va s := rfl
@[simp] theorem exec_pageMigration spid va frame s : exec (.pageMigration spid va frame) s = execPageMigration spid va frame s := rfl
@[simp] theorem exec_pageRequest master spid va s : exec (.pageRequest master spid va) s = execPageRequest master spid va s := rfl
@[simp] theorem exec_pageMapped spid va pte s : exec (.pageMapped spid va pte) s = execPageMapped spid va pte s := rfl
@[simp] theorem exec_pageUnmappable spid va s : exec (.pageUnmappable spid va) s = execPageUnmappable spid va s := rfl
@[simp] theorem exec_trapReturn c s : exec (.trapReturn c) s = execTrapReturn c s := rfl
@[simp] theorem exec_trapEnd c s : exec (.trapEnd c) s = execTrapEnd c s := rfl
@[simp] theorem exec_interrupt c s : exec (.interrupt c) s = execInterrupt c s := rfl
@[simp] theorem exec_preemptionRequest c s : exec (.preemptionRequest c) s = execPreemptionRequest c s := rfl
@[simp] theorem exec_contextHalt c s : exec (.contextHalt c) s = execContextHalt c s := rfl
@[simp] theorem exec_contextSave c s : exec (.contextSave c) s = execContextSave c s := rfl
@[simp] theorem exec_contextRestore c s : exec (.contextRestore c) s = execContextRestore c s := rfl
@[simp] theorem exec_launchAcceptance s : exec .launchAcceptance s = execLaunchAcceptance s := rfl
@[simp] theorem exec_phaseBoundary launch s : exec (.phaseBoundary launch) s = execPhaseBoundary launch s := rfl
@[simp] theorem exec_taskBinding die s : exec (.taskBinding die) s = execTaskBinding die s := rfl
@[simp] theorem exec_stagingCopy c s : exec (.stagingCopy c) s = execStagingCopy c s := rfl
@[simp] theorem exec_taskStart c s : exec (.taskStart c) s = execTaskStart c s := rfl
@[simp] theorem exec_taskRetirement launch task s : exec (.taskRetirement launch task) s = execTaskRetirement launch task s := rfl
@[simp] theorem exec_runLimit core s : exec (.runLimit core) s = execRunLimit core s := rfl
@[simp] theorem exec_launchCompletion launch s : exec (.launchCompletion launch) s = execLaunchCompletion launch s := rfl
@[simp] theorem exec_quiescePerformed spid s : exec (.quiescePerformed spid) s = execQuiescePerformed spid s := rfl
@[simp] theorem exec_quiesce val s : exec (.quiesce val) s = execQuiesce val s := rfl
@[simp] theorem exec_shoot val s : exec (.shoot val) s = execShoot val s := rfl
@[simp] theorem exec_sack val s : exec (.sack val) s = execSack val s := rfl
@[simp] theorem exec_poolpush val s : exec (.poolpush val) s = execPoolpush val s := rfl
@[simp] theorem exec_poolpop kernel s : exec (.poolpop kernel) s = execPoolpop kernel s := rfl
@[simp] theorem exec_slotval val s : exec (.slotval val) s = execSlotval val s := rfl
@[simp] theorem exec_atval val s : exec (.atval val) s = execAtval val s := rfl
@[simp] theorem exec_dbgctl val s : exec (.dbgctl val) s = execDbgctl val s := rfl
@[simp] theorem exec_managementRegisterWrite kernel off val s : exec (.managementRegisterWrite kernel off val) s = execManagementRegisterWrite kernel off val s := rfl
@[simp] theorem exec_release htag s : exec (.release htag) s = execRelease htag s := rfl
@[simp] theorem exec_cancel htag s : exec (.cancel htag) s = execCancel htag s := rfl
@[simp] theorem exec_statementRequest s : exec .statementRequest s = execStatementRequest s := rfl
@[simp] theorem exec_attestationReport launch addr nonce s : exec (.attestationReport launch addr nonce) s = execAttestationReport launch addr nonce s := rfl
@[simp] theorem exec_presentStatement addr s : exec (.presentStatement addr) s = execPresentStatement addr s := rfl
@[simp] theorem exec_importStatement addr s : exec (.importStatement addr) s = execImportStatement addr s := rfl
@[simp] theorem exec_dbgInterrupt s : exec .dbgInterrupt s = execDbgInterrupt s := rfl
@[simp] theorem exec_dbgSave s : exec .dbgSave s = execDbgSave s := rfl
@[simp] theorem exec_dbgResume s : exec .dbgResume s = execDbgResume s := rfl
@[simp] theorem exec_dbgRestore s : exec .dbgRestore s = execDbgRestore s := rfl
@[simp] theorem exec_dbgEnd s : exec .dbgEnd s = execDbgEnd s := rfl
@[simp] theorem exec_powerOnReset s : exec .powerOnReset s = execPowerOnReset s := rfl
@[simp] theorem exec_errorDetected source uncorrectable unit addr s : exec (.errorDetected source uncorrectable unit addr) s = execErrorDetected source uncorrectable unit addr s := rfl
@[simp] theorem exec_patrolScrub s : exec .patrolScrub s = execPatrolScrub s := rfl
@[simp] theorem exec_machineCheck master s : exec (.machineCheck master) s = execMachineCheck master s := rfl
@[simp] theorem exec_edgeFailure pair s : exec (.edgeFailure pair) s = execEdgeFailure pair s := rfl
@[simp] theorem exec_selfRefreshEntry stack s : exec (.selfRefreshEntry stack) s = execSelfRefreshEntry stack s := rfl
@[simp] theorem exec_selfRefreshExit stack s : exec (.selfRefreshExit stack) s = execSelfRefreshExit stack s := rfl
@[simp] theorem exec_coolantFlowLow s : exec .coolantFlowLow s = execCoolantFlowLow s := rfl
@[simp] theorem exec_overTemperature junction other s : exec (.overTemperature junction other) s = execOverTemperature junction other s := rfl
@[simp] theorem exec_powerCapExceeded watts s : exec (.powerCapExceeded watts) s = execPowerCapExceeded watts s := rfl
@[simp] theorem exec_ualinkAtomicRequest port s : exec (.ualinkAtomicRequest port) s = execUalinkAtomicRequest port s := rfl
@[simp] theorem exec_hostLinkWrite storage spid addr data s : exec (.hostLinkWrite storage spid addr data) s = execHostLinkWrite storage spid addr data s := rfl
@[simp] theorem exec_slotGrant channel waiting s : exec (.slotGrant channel waiting) s = execSlotGrant channel waiting s := rfl
@[simp] theorem exec_powerLoss s : exec .powerLoss s = execPowerLoss s := rfl
@[simp] theorem exec_orderlyShutdown s : exec .orderlyShutdown s = execOrderlyShutdown s := rfl
@[simp] theorem exec_migrationOut s : exec .migrationOut s = execMigrationOut s := rfl

end Sys2Proof.Machine
end

