-- ==== Sys2Proof/Laws/Mem.lean ====
section
/-! SUPPORT. The laws of maps and byte memory: a read after a write, what a write leaves alone, and that every operation on a
memory keeps its canonical form. -/

namespace Sys2Proof

/-- A read after a put: the value put at its key, every other key as before. -/
@[simp] theorem NMap.get_put {α : Type} (d : α) (m : NMap α) (n : Nat) (a : α) (k : Nat) :
    NMap.get d (NMap.put m n a) k = if k = n then a else NMap.get d m k := by
  induction m with
  | nil => simp [NMap.put, NMap.get]
  | cons e t ih =>
    obtain ⟨i, v⟩ := e
    simp only [NMap.put]
    split
    · simp [NMap.get]
    · split
      · subst_vars; simp only [NMap.get]; split <;> simp_all
      · simp only [NMap.get, ih]
        split
        · split <;> first | omega | rfl
        · rfl

/-- Every entry of a map after a put is the one put or an entry of before. -/
theorem NMap.mem_put {α : Type} {m : NMap α} {n : Nat} {a : α} {e : Nat × α} (h : e ∈ NMap.put m n a) :
    e = (n, a) ∨ e ∈ m := by
  induction m with
  | nil => simp_all [NMap.put]
  | cons x t ih =>
    obtain ⟨i, v⟩ := x
    simp only [NMap.put] at h
    split at h
    · simpa using h
    · split at h
      · simp only [List.mem_cons] at h ⊢; tauto
      · simp only [List.mem_cons] at h ⊢
        rcases h with h | h
        · exact .inr (.inl h)
        · rcases ih h with h | h <;> tauto

/-- What a map reads is its default or the value of one of its entries. -/
theorem NMap.get_cases {α : Type} (d : α) (m : NMap α) (n : Nat) : NMap.get d m n = d ∨ (n, NMap.get d m n) ∈ m := by
  induction m with
  | nil => simp [NMap.get]
  | cons x t ih =>
    obtain ⟨i, v⟩ := x
    simp only [NMap.get]
    split
    · subst_vars; simp
    · rcases ih with h | h
      · exact .inl h
      · exact .inr (List.mem_cons_of_mem _ h)

namespace Machine

/-- The canonical form of a memory, as a proposition: addresses strictly rising, no zero byte listed. -/
theorem Mem.wf_iff (m : Mem) : Mem.wf m = true ↔ m.Pairwise (fun a b => a.1 < b.1) ∧ ∀ e ∈ m, e.2 ≠ 0 := by
  induction m with
  | nil => simp [Mem.wf]
  | cons x t ih =>
    obtain ⟨a, v⟩ := x
    cases t with
    | nil => simp [Mem.wf]
    | cons y u =>
      obtain ⟨b, w⟩ := y
      simp only [Mem.wf, Bool.and_eq_true, ih, decide_eq_true_eq, bne_iff_ne]
      constructor
      · rintro ⟨⟨hv, hab⟩, hp, hz⟩
        refine ⟨List.pairwise_cons.2 ⟨fun e he => ?_, hp⟩, fun e he => ?_⟩
        · rcases List.mem_cons.1 he with rfl | he
          · exact hab
          · exact Nat.lt_trans hab (List.rel_of_pairwise_cons hp he)
        · rcases List.mem_cons.1 he with rfl | he
          · exact hv
          · exact hz e he
      · rintro ⟨hp, hz⟩
        exact ⟨⟨hz (a, v) (by simp), List.rel_of_pairwise_cons hp (a' := (b, w)) (by simp)⟩, hp.of_cons, fun e he => hz e (by simp [he])⟩

@[simp] theorem Mem.wf_nil : Mem.wf [] = true := rfl

/-- A part of a canonical memory is canonical. -/
theorem Mem.wf_filter {m : Mem} (h : Mem.wf m = true) (p : Host.Cell → Bool) : Mem.wf (m.filter p) = true := by
  rw [Mem.wf_iff] at h ⊢
  exact ⟨h.1.sublist List.filter_sublist, fun e he => h.2 e (List.mem_filter.1 he).1⟩

theorem Mem.mem_cells {a : Nat} {bs : List Byte} {e : Host.Cell} (h : e ∈ Mem.cells a bs) :
    a ≤ e.1 ∧ e.1 < a + bs.length ∧ e.2 ≠ 0 := by
  induction bs generalizing a with
  | nil => simp [Mem.cells] at h
  | cons b t ih =>
    simp only [Mem.cells] at h
    split at h
    · have := ih h; simp only [List.length_cons]; exact ⟨by omega, by omega, this.2.2⟩
    · rcases List.mem_cons.1 h with rfl | h
      · simp_all
      · have := ih h; simp only [List.length_cons]; exact ⟨by omega, by omega, this.2.2⟩

/-- The cells of a byte list are a canonical memory. -/
theorem Mem.wf_cells (a : Nat) (bs : List Byte) : Mem.wf (Mem.cells a bs) = true := by
  rw [Mem.wf_iff]
  refine ⟨?_, fun e he => (Mem.mem_cells he).2.2⟩
  induction bs generalizing a with
  | nil => simp [Mem.cells]
  | cons b t ih =>
    simp only [Mem.cells]
    split
    · exact ih _
    · exact List.pairwise_cons.2 ⟨fun e he => by have := (Mem.mem_cells he).1; simp only; omega, ih _⟩

/-- Three canonical memories whose addresses lie in rising ranges make one. -/
theorem Mem.wf_append3 {x y z : Mem} {a b : Nat} (hab : a ≤ b) (hx : Mem.wf x = true) (hy : Mem.wf y = true) (hz : Mem.wf z = true)
    (h1 : ∀ e ∈ x, e.1 < a) (h2 : ∀ e ∈ y, a ≤ e.1 ∧ e.1 < b) (h3 : ∀ e ∈ z, b ≤ e.1) : Mem.wf (x ++ y ++ z) = true := by
  rw [Mem.wf_iff] at *
  refine ⟨List.pairwise_append.2 ⟨List.pairwise_append.2 ⟨hx.1, hy.1, fun e he f hf => ?_⟩, hz.1, fun e he f hf => ?_⟩, fun e he => ?_⟩
  · have := h1 e he; have := h2 f hf; omega
  · have := h3 f hf
    rcases List.mem_append.1 he with he | he
    · have := h1 e he; omega
    · have := h2 e he; omega
  · simp only [List.mem_append] at he
    rcases he with (he | he) | he
    · exact hx.2 e he
    · exact hy.2 e he
    · exact hz.2 e he

/-- A write keeps the canonical form. -/
theorem Mem.wf_write {m : Mem} (h : Mem.wf m = true) (a : Nat) (bs : List Byte) : Mem.wf (Mem.write m a bs) = true :=
  Mem.wf_append3 (a := a) (b := a + bs.length) (by omega) (Mem.wf_filter h _) (Mem.wf_cells a bs) (Mem.wf_filter h _)
    (fun e he => by simpa using (List.mem_filter.1 he).2) (fun e he => ⟨(Mem.mem_cells he).1, (Mem.mem_cells he).2.1⟩)
    (fun e he => by simpa using (List.mem_filter.1 he).2)

/-- A write of a number keeps the canonical form. -/
theorem Mem.wf_writeLE {m : Mem} (h : Mem.wf m = true) (a n v : Nat) : Mem.wf (Mem.writeLE m a n v) = true := Mem.wf_write h _ _
/-- A clear keeps the canonical form. -/
theorem Mem.wf_clear {m : Mem} (h : Mem.wf m = true) (a n : Nat) : Mem.wf (Mem.clear m a n) = true := Mem.wf_filter h _

theorem Mem.get_cons (i : Nat) (v : Byte) (t : Mem) (k : Nat) : Mem.get ((i, v) :: t) k = if k = i then v else Mem.get t k := rfl

theorem Mem.get_filter (m : Mem) (p : Host.Cell → Bool) (k : Nat) (hp : ∀ v, p (k, v) = true) :
    Mem.get (m.filter p) k = Mem.get m k := by
  induction m with
  | nil => rfl
  | cons e t ih =>
    obtain ⟨i, v⟩ := e
    by_cases hik : k = i
    · subst hik; simp [List.filter, hp, Mem.get_cons]
    · cases hpe : p (i, v) <;> simp [List.filter, hpe, Mem.get_cons, hik, ih]

theorem Mem.get_none (m : Mem) (k : Nat) (h : ∀ e ∈ m, e.1 ≠ k) : Mem.get m k = 0 := by
  unfold Mem.get
  induction m with
  | nil => rfl
  | cons e t ih =>
    have := h e (by simp)
    simp only [NMap.get, if_neg (Ne.symm this)]
    exact ih (fun e he => h e (by simp [he]))

theorem Mem.get_append (x y : Mem) (k : Nat) (h : ∀ e ∈ x, e.1 ≠ k) : Mem.get (x ++ y) k = Mem.get y k := by
  unfold Mem.get
  induction x with
  | nil => rfl
  | cons e t ih =>
    have := h e (by simp)
    simp only [List.cons_append, NMap.get, if_neg (Ne.symm this)]
    exact ih (fun e he => h e (by simp [he]))

theorem Mem.get_append_left (x y : Mem) (k : Nat) (h : ∀ e ∈ y, e.1 ≠ k) : Mem.get (x ++ y) k = Mem.get x k := by
  induction x with
  | nil => exact Mem.get_none y k h
  | cons e t ih => obtain ⟨i, v⟩ := e; simp [Mem.get_cons, ih]

theorem Mem.get_cells (a : Nat) (bs : List Byte) (k : Nat) :
    Mem.get (Mem.cells a bs) k = if a ≤ k ∧ k < a + bs.length then bs.getD (k - a) 0 else 0 := by
  induction bs generalizing a with
  | nil => simp [Mem.cells, Mem.get, NMap.get]
  | cons b t ih =>
    simp only [Mem.cells]
    by_cases hk : k = a
    · subst hk
      split
      · rw [ih]; simp_all
      · simp [Mem.get, NMap.get]
    · have e : Mem.get (if b = 0 then Mem.cells (a + 1) t else (a, b) :: Mem.cells (a + 1) t) k = Mem.get (Mem.cells (a + 1) t) k := by
        split
        · rfl
        · simp [Mem.get, NMap.get, hk]
      rw [e, ih]
      simp only [List.length_cons]
      by_cases h : a + 1 ≤ k ∧ k < a + 1 + t.length
      · rw [if_pos h, if_pos (by omega)]
        have : k - a = k - (a + 1) + 1 := by omega
        rw [this]; simp
      · rw [if_neg h, if_neg (by omega)]

/-- One byte read after a write: the byte written where the range holds the address, else as before. -/
@[simp] theorem Mem.get_write (m : Mem) (a : Nat) (bs : List Byte) (k : Nat) :
    Mem.get (Mem.write m a bs) k = if a ≤ k ∧ k < a + bs.length then bs.getD (k - a) 0 else Mem.get m k := by
  unfold Mem.write
  by_cases h1 : k < a
  · rw [List.append_assoc, Mem.get_append_left, Mem.get_filter _ _ _ (fun v => by simpa using h1), if_neg (by omega)]
    intro e he
    rcases List.mem_append.1 he with he | he
    · have := Mem.mem_cells he; omega
    · have := (List.mem_filter.1 he).2; simp only [decide_eq_true_eq] at this; omega
  · rw [List.append_assoc, Mem.get_append _ _ _ (fun e he => by have := (List.mem_filter.1 he).2; simp only [decide_eq_true_eq] at this; omega)]
    by_cases h2 : k < a + bs.length
    · rw [Mem.get_append_left _ _ _ (fun e he => by have := (List.mem_filter.1 he).2; simp only [decide_eq_true_eq] at this; omega),
        Mem.get_cells, if_pos (by omega), if_pos (by omega)]
    · rw [Mem.get_append _ _ _ (fun e he => by have := Mem.mem_cells he; omega),
        Mem.get_filter _ _ _ (fun v => by simp only [decide_eq_true_eq]; omega), if_neg (by omega)]

/-- A read after a write to the same place gives the bytes written. -/
theorem Mem.read_write_same (m : Mem) (a : Nat) (bs : List Byte) : Mem.read (Mem.write m a bs) a bs.length = bs := by
  unfold Mem.read
  apply List.ext_getElem
  · simp
  · intro i h1 h2
    have hi : i < bs.length := h2
    simp [hi]

/-- A write leaves every range it does not meet alone. -/
theorem Mem.read_write_other (m : Mem) (a : Nat) (bs : List Byte) (b n : Nat) (h : b + n ≤ a ∨ a + bs.length ≤ b) :
    Mem.read (Mem.write m a bs) b n = Mem.read m b n := by
  unfold Mem.read
  apply List.map_congr_left
  intro i hi
  have := List.mem_range.1 hi
  simp only [Mem.get_write]
  rw [if_neg (by omega)]

@[simp] theorem leBytes_length (n v : Nat) : (leBytes n v).length = n := by
  induction n generalizing v with
  | zero => rfl
  | succ n ih => simp [leBytes, ih]

/-- A number comes back from its little-endian bytes (R4). -/
theorem ofLE_leBytes (n v : Nat) : ofLE (leBytes n v) = v % 256 ^ n := by
  induction n generalizing v with
  | zero => simp [leBytes, ofLE, Nat.mod_one]
  | succ n ih =>
    have h : 256 ^ (n + 1) = 256 * 256 ^ n := by rw [Nat.pow_succ, Nat.mul_comm]
    have h8 : (2 : Nat) ^ 8 = 256 := rfl
    rw [leBytes, ofLE, ih, BitVec.toNat_ofNat, h, h8, Nat.mod_mul]

/-- A number read after it was written. -/
theorem Mem.readLE_writeLE (m : Mem) (a n v : Nat) : Mem.readLE (Mem.writeLE m a n v) a n = v % 256 ^ n := by
  have h := Mem.read_write_same m a (leBytes n v)
  rw [leBytes_length] at h
  simp only [Mem.readLE, Mem.writeLE, h, ofLE_leBytes]

end Machine

end Sys2Proof
end

