-- ==== Sys2Proof/Laws/State.lean ====
section
/-! SUPPORT. What each update of the state leaves in every field: one lemma per field per update. -/

namespace Sys2Proof.Machine

/-! ## setCtx -/

@[simp] theorem State.ctx_setCtx (s : State) (i : Nat) (x : Ctx) (j : Nat) :
    (s.setCtx i x).ctx j = if j = i then x else s.ctx j := NMap.get_put ..
@[simp] theorem State.inbox_setCtx (s : State) (i : Nat) (x : Ctx) : (s.setCtx i x).inbox = s.inbox := rfl
@[simp] theorem State.powered_setCtx (s : State) (i : Nat) (x : Ctx) : (s.setCtx i x).powered = s.powered := rfl
@[simp] theorem State.wall_setCtx (s : State) (i : Nat) (x : Ctx) : (s.setCtx i x).wall = s.wall := rfl
@[simp] theorem State.cur_setCtx (s : State) (i : Nat) (x : Ctx) : (s.setCtx i x).cur = s.cur := rfl
@[simp] theorem State.nextId_setCtx (s : State) (i : Nat) (x : Ctx) : (s.setCtx i x).nextId = s.nextId := rfl
@[simp] theorem State.iss_setCtx (s : State) (i : Nat) (x : Ctx) : (s.setCtx i x).iss = s.iss := rfl
@[simp] theorem State.cores_setCtx (s : State) (i : Nat) (x : Ctx) : (s.setCtx i x).cores = s.cores := rfl
@[simp] theorem State.wharfs_setCtx (s : State) (i : Nat) (x : Ctx) : (s.setCtx i x).wharfs = s.wharfs := rfl
@[simp] theorem State.keepers_setCtx (s : State) (i : Nat) (x : Ctx) : (s.setCtx i x).keepers = s.keepers := rfl
@[simp] theorem State.launches_setCtx (s : State) (i : Nat) (x : Ctx) : (s.setCtx i x).launches = s.launches := rfl
@[simp] theorem State.completed_setCtx (s : State) (i : Nat) (x : Ctx) : (s.setCtx i x).completed = s.completed := rfl
@[simp] theorem State.lastPart_setCtx (s : State) (i : Nat) (x : Ctx) : (s.setCtx i x).lastPart = s.lastPart := rfl
@[simp] theorem State.bindings_setCtx (s : State) (i : Nat) (x : Ctx) : (s.setCtx i x).bindings = s.bindings := rfl
@[simp] theorem State.flits_setCtx (s : State) (i : Nat) (x : Ctx) : (s.setCtx i x).flits = s.flits := rfl
@[simp] theorem State.saved_setCtx (s : State) (i : Nat) (x : Ctx) : (s.setCtx i x).saved = s.saved := rfl
@[simp] theorem State.packets_setCtx (s : State) (i : Nat) (x : Ctx) : (s.setCtx i x).packets = s.packets := rfl
@[simp] theorem State.outbound_setCtx (s : State) (i : Nat) (x : Ctx) : (s.setCtx i x).outbound = s.outbound := rfl
@[simp] theorem State.seqs_setCtx (s : State) (i : Nat) (x : Ctx) : (s.setCtx i x).seqs = s.seqs := rfl
@[simp] theorem State.mem_setCtx (s : State) (i : Nat) (x : Ctx) : (s.setCtx i x).mem = s.mem := rfl
@[simp] theorem State.marks_setCtx (s : State) (i : Nat) (x : Ctx) : (s.setCtx i x).marks = s.marks := rfl
@[simp] theorem State.tlbs_setCtx (s : State) (i : Nat) (x : Ctx) : (s.setCtx i x).tlbs = s.tlbs := rfl
@[simp] theorem State.pageReqs_setCtx (s : State) (i : Nat) (x : Ctx) : (s.setCtx i x).pageReqs = s.pageReqs := rfl
@[simp] theorem State.unmappable_setCtx (s : State) (i : Nat) (x : Ctx) : (s.setCtx i x).unmappable = s.unmappable := rfl
@[simp] theorem State.spaces_setCtx (s : State) (i : Nat) (x : Ctx) : (s.setCtx i x).spaces = s.spaces := rfl
@[simp] theorem State.access_setCtx (s : State) (i : Nat) (x : Ctx) : (s.setCtx i x).access = s.access := rfl
@[simp] theorem State.slots_setCtx (s : State) (i : Nat) (x : Ctx) : (s.setCtx i x).slots = s.slots := rfl
@[simp] theorem State.slotAt_setCtx (s : State) (i : Nat) (x : Ctx) : (s.setCtx i x).slotAt = s.slotAt := rfl
@[simp] theorem State.turnSlots_setCtx (s : State) (i : Nat) (x : Ctx) : (s.setCtx i x).turnSlots = s.turnSlots := rfl
@[simp] theorem State.grantLog_setCtx (s : State) (i : Nat) (x : Ctx) : (s.setCtx i x).grantLog = s.grantLog := rfl
@[simp] theorem State.pools_setCtx (s : State) (i : Nat) (x : Ctx) : (s.setCtx i x).pools = s.pools := rfl
@[simp] theorem State.ndesc_setCtx (s : State) (i : Nat) (x : Ctx) : (s.setCtx i x).ndesc = s.ndesc := rfl
@[simp] theorem State.tier_setCtx (s : State) (i : Nat) (x : Ctx) : (s.setCtx i x).tier = s.tier := rfl
@[simp] theorem State.admitted_setCtx (s : State) (i : Nat) (x : Ctx) : (s.setCtx i x).admitted = s.admitted := rfl
@[simp] theorem State.beat_setCtx (s : State) (i : Nat) (x : Ctx) : (s.setCtx i x).beat = s.beat := rfl
@[simp] theorem State.cadmit_setCtx (s : State) (i : Nat) (x : Ctx) : (s.setCtx i x).cadmit = s.cadmit := rfl
@[simp] theorem State.cbeat_setCtx (s : State) (i : Nat) (x : Ctx) : (s.setCtx i x).cbeat = s.cbeat := rfl
@[simp] theorem State.abound_setCtx (s : State) (i : Nat) (x : Ctx) : (s.setCtx i x).abound = s.abound := rfl
@[simp] theorem State.bbound_setCtx (s : State) (i : Nat) (x : Ctx) : (s.setCtx i x).bbound = s.bbound := rfl
@[simp] theorem State.imported_setCtx (s : State) (i : Nat) (x : Ctx) : (s.setCtx i x).imported = s.imported := rfl
@[simp] theorem State.gen_setCtx (s : State) (i : Nat) (x : Ctx) : (s.setCtx i x).gen = s.gen := rfl
@[simp] theorem State.stmtSeq_setCtx (s : State) (i : Nat) (x : Ctx) : (s.setCtx i x).stmtSeq = s.stmtSeq := rfl
@[simp] theorem State.stmtPrev_setCtx (s : State) (i : Nat) (x : Ctx) : (s.setCtx i x).stmtPrev = s.stmtPrev := rfl
@[simp] theorem State.committed_setCtx (s : State) (i : Nat) (x : Ctx) : (s.setCtx i x).committed = s.committed := rfl
@[simp] theorem State.gapFlag_setCtx (s : State) (i : Nat) (x : Ctx) : (s.setCtx i x).gapFlag = s.gapFlag := rfl
@[simp] theorem State.kmeas_setCtx (s : State) (i : Nat) (x : Ctx) : (s.setCtx i x).kmeas = s.kmeas := rfl
@[simp] theorem State.stmts_setCtx (s : State) (i : Nat) (x : Ctx) : (s.setCtx i x).stmts = s.stmts := rfl
@[simp] theorem State.bootStep_setCtx (s : State) (i : Nat) (x : Ctx) : (s.setCtx i x).bootStep = s.bootStep := rfl
@[simp] theorem State.closed_setCtx (s : State) (i : Nat) (x : Ctx) : (s.setCtx i x).closed = s.closed := rfl
@[simp] theorem State.final_setCtx (s : State) (i : Nat) (x : Ctx) : (s.setCtx i x).final = s.final := rfl
@[simp] theorem State.mr_setCtx (s : State) (i : Nat) (x : Ctx) : (s.setCtx i x).mr = s.mr := rfl
@[simp] theorem State.quiescing_setCtx (s : State) (i : Nat) (x : Ctx) : (s.setCtx i x).quiescing = s.quiescing := rfl
@[simp] theorem State.shooting_setCtx (s : State) (i : Nat) (x : Ctx) : (s.setCtx i x).shooting = s.shooting := rfl
@[simp] theorem State.evSeq_setCtx (s : State) (i : Nat) (x : Ctx) : (s.setCtx i x).evSeq = s.evSeq := rfl
@[simp] theorem State.selfRef_setCtx (s : State) (i : Nat) (x : Ctx) : (s.setCtx i x).selfRef = s.selfRef := rfl
@[simp] theorem State.srHeld_setCtx (s : State) (i : Nat) (x : Ctx) : (s.setCtx i x).srHeld = s.srHeld := rfl
@[simp] theorem State.portQ_setCtx (s : State) (i : Nat) (x : Ctx) : (s.setCtx i x).portQ = s.portQ := rfl
@[simp] theorem State.portGave_setCtx (s : State) (i : Nat) (x : Ctx) : (s.setCtx i x).portGave = s.portGave := rfl
@[simp] theorem State.deadEdges_setCtx (s : State) (i : Nat) (x : Ctx) : (s.setCtx i x).deadEdges = s.deadEdges := rfl
@[simp] theorem State.deadPorts_setCtx (s : State) (i : Nat) (x : Ctx) : (s.setCtx i x).deadPorts = s.deadPorts := rfl
@[simp] theorem State.throttled_setCtx (s : State) (i : Nat) (x : Ctx) : (s.setCtx i x).throttled = s.throttled := rfl
@[simp] theorem State.gpStopped_setCtx (s : State) (i : Nat) (x : Ctx) : (s.setCtx i x).gpStopped = s.gpStopped := rfl
@[simp] theorem State.msix_setCtx (s : State) (i : Nat) (x : Ctx) : (s.setCtx i x).msix = s.msix := rfl
@[simp] theorem State.intReq_setCtx (s : State) (i : Nat) (x : Ctx) : (s.setCtx i x).intReq = s.intReq := rfl
@[simp] theorem State.notified_setCtx (s : State) (i : Nat) (x : Ctx) : (s.setCtx i x).notified = s.notified := rfl
@[simp] theorem State.heldOut_setCtx (s : State) (i : Nat) (x : Ctx) : (s.setCtx i x).heldOut = s.heldOut := rfl
@[simp] theorem State.dbgSaving_setCtx (s : State) (i : Nat) (x : Ctx) : (s.setCtx i x).dbgSaving = s.dbgSaving := rfl
@[simp] theorem State.core_setCtx (s : State) (i : Nat) (x : Ctx) (j : Nat) : (s.setCtx i x).core j = s.core j := rfl
@[simp] theorem State.wharf_setCtx (s : State) (i : Nat) (x : Ctx) (j : Nat) : (s.setCtx i x).wharf j = s.wharf j := rfl
@[simp] theorem State.keeper_setCtx (s : State) (i : Nat) (x : Ctx) (j : Nat) : (s.setCtx i x).keeper j = s.keeper j := rfl

/-! ## setCore -/

@[simp] theorem State.core_setCore (s : State) (i : Nat) (x : Core) (j : Nat) :
    (s.setCore i x).core j = if j = i then x else s.core j := NMap.get_put ..
@[simp] theorem State.inbox_setCore (s : State) (i : Nat) (x : Core) : (s.setCore i x).inbox = s.inbox := rfl
@[simp] theorem State.powered_setCore (s : State) (i : Nat) (x : Core) : (s.setCore i x).powered = s.powered := rfl
@[simp] theorem State.wall_setCore (s : State) (i : Nat) (x : Core) : (s.setCore i x).wall = s.wall := rfl
@[simp] theorem State.cur_setCore (s : State) (i : Nat) (x : Core) : (s.setCore i x).cur = s.cur := rfl
@[simp] theorem State.nextId_setCore (s : State) (i : Nat) (x : Core) : (s.setCore i x).nextId = s.nextId := rfl
@[simp] theorem State.iss_setCore (s : State) (i : Nat) (x : Core) : (s.setCore i x).iss = s.iss := rfl
@[simp] theorem State.ctxs_setCore (s : State) (i : Nat) (x : Core) : (s.setCore i x).ctxs = s.ctxs := rfl
@[simp] theorem State.wharfs_setCore (s : State) (i : Nat) (x : Core) : (s.setCore i x).wharfs = s.wharfs := rfl
@[simp] theorem State.keepers_setCore (s : State) (i : Nat) (x : Core) : (s.setCore i x).keepers = s.keepers := rfl
@[simp] theorem State.launches_setCore (s : State) (i : Nat) (x : Core) : (s.setCore i x).launches = s.launches := rfl
@[simp] theorem State.completed_setCore (s : State) (i : Nat) (x : Core) : (s.setCore i x).completed = s.completed := rfl
@[simp] theorem State.lastPart_setCore (s : State) (i : Nat) (x : Core) : (s.setCore i x).lastPart = s.lastPart := rfl
@[simp] theorem State.bindings_setCore (s : State) (i : Nat) (x : Core) : (s.setCore i x).bindings = s.bindings := rfl
@[simp] theorem State.flits_setCore (s : State) (i : Nat) (x : Core) : (s.setCore i x).flits = s.flits := rfl
@[simp] theorem State.saved_setCore (s : State) (i : Nat) (x : Core) : (s.setCore i x).saved = s.saved := rfl
@[simp] theorem State.packets_setCore (s : State) (i : Nat) (x : Core) : (s.setCore i x).packets = s.packets := rfl
@[simp] theorem State.outbound_setCore (s : State) (i : Nat) (x : Core) : (s.setCore i x).outbound = s.outbound := rfl
@[simp] theorem State.seqs_setCore (s : State) (i : Nat) (x : Core) : (s.setCore i x).seqs = s.seqs := rfl
@[simp] theorem State.mem_setCore (s : State) (i : Nat) (x : Core) : (s.setCore i x).mem = s.mem := rfl
@[simp] theorem State.marks_setCore (s : State) (i : Nat) (x : Core) : (s.setCore i x).marks = s.marks := rfl
@[simp] theorem State.tlbs_setCore (s : State) (i : Nat) (x : Core) : (s.setCore i x).tlbs = s.tlbs := rfl
@[simp] theorem State.pageReqs_setCore (s : State) (i : Nat) (x : Core) : (s.setCore i x).pageReqs = s.pageReqs := rfl
@[simp] theorem State.unmappable_setCore (s : State) (i : Nat) (x : Core) : (s.setCore i x).unmappable = s.unmappable := rfl
@[simp] theorem State.spaces_setCore (s : State) (i : Nat) (x : Core) : (s.setCore i x).spaces = s.spaces := rfl
@[simp] theorem State.access_setCore (s : State) (i : Nat) (x : Core) : (s.setCore i x).access = s.access := rfl
@[simp] theorem State.slots_setCore (s : State) (i : Nat) (x : Core) : (s.setCore i x).slots = s.slots := rfl
@[simp] theorem State.slotAt_setCore (s : State) (i : Nat) (x : Core) : (s.setCore i x).slotAt = s.slotAt := rfl
@[simp] theorem State.turnSlots_setCore (s : State) (i : Nat) (x : Core) : (s.setCore i x).turnSlots = s.turnSlots := rfl
@[simp] theorem State.grantLog_setCore (s : State) (i : Nat) (x : Core) : (s.setCore i x).grantLog = s.grantLog := rfl
@[simp] theorem State.pools_setCore (s : State) (i : Nat) (x : Core) : (s.setCore i x).pools = s.pools := rfl
@[simp] theorem State.ndesc_setCore (s : State) (i : Nat) (x : Core) : (s.setCore i x).ndesc = s.ndesc := rfl
@[simp] theorem State.tier_setCore (s : State) (i : Nat) (x : Core) : (s.setCore i x).tier = s.tier := rfl
@[simp] theorem State.admitted_setCore (s : State) (i : Nat) (x : Core) : (s.setCore i x).admitted = s.admitted := rfl
@[simp] theorem State.beat_setCore (s : State) (i : Nat) (x : Core) : (s.setCore i x).beat = s.beat := rfl
@[simp] theorem State.cadmit_setCore (s : State) (i : Nat) (x : Core) : (s.setCore i x).cadmit = s.cadmit := rfl
@[simp] theorem State.cbeat_setCore (s : State) (i : Nat) (x : Core) : (s.setCore i x).cbeat = s.cbeat := rfl
@[simp] theorem State.abound_setCore (s : State) (i : Nat) (x : Core) : (s.setCore i x).abound = s.abound := rfl
@[simp] theorem State.bbound_setCore (s : State) (i : Nat) (x : Core) : (s.setCore i x).bbound = s.bbound := rfl
@[simp] theorem State.imported_setCore (s : State) (i : Nat) (x : Core) : (s.setCore i x).imported = s.imported := rfl
@[simp] theorem State.gen_setCore (s : State) (i : Nat) (x : Core) : (s.setCore i x).gen = s.gen := rfl
@[simp] theorem State.stmtSeq_setCore (s : State) (i : Nat) (x : Core) : (s.setCore i x).stmtSeq = s.stmtSeq := rfl
@[simp] theorem State.stmtPrev_setCore (s : State) (i : Nat) (x : Core) : (s.setCore i x).stmtPrev = s.stmtPrev := rfl
@[simp] theorem State.committed_setCore (s : State) (i : Nat) (x : Core) : (s.setCore i x).committed = s.committed := rfl
@[simp] theorem State.gapFlag_setCore (s : State) (i : Nat) (x : Core) : (s.setCore i x).gapFlag = s.gapFlag := rfl
@[simp] theorem State.kmeas_setCore (s : State) (i : Nat) (x : Core) : (s.setCore i x).kmeas = s.kmeas := rfl
@[simp] theorem State.stmts_setCore (s : State) (i : Nat) (x : Core) : (s.setCore i x).stmts = s.stmts := rfl
@[simp] theorem State.bootStep_setCore (s : State) (i : Nat) (x : Core) : (s.setCore i x).bootStep = s.bootStep := rfl
@[simp] theorem State.closed_setCore (s : State) (i : Nat) (x : Core) : (s.setCore i x).closed = s.closed := rfl
@[simp] theorem State.final_setCore (s : State) (i : Nat) (x : Core) : (s.setCore i x).final = s.final := rfl
@[simp] theorem State.mr_setCore (s : State) (i : Nat) (x : Core) : (s.setCore i x).mr = s.mr := rfl
@[simp] theorem State.quiescing_setCore (s : State) (i : Nat) (x : Core) : (s.setCore i x).quiescing = s.quiescing := rfl
@[simp] theorem State.shooting_setCore (s : State) (i : Nat) (x : Core) : (s.setCore i x).shooting = s.shooting := rfl
@[simp] theorem State.evSeq_setCore (s : State) (i : Nat) (x : Core) : (s.setCore i x).evSeq = s.evSeq := rfl
@[simp] theorem State.selfRef_setCore (s : State) (i : Nat) (x : Core) : (s.setCore i x).selfRef = s.selfRef := rfl
@[simp] theorem State.srHeld_setCore (s : State) (i : Nat) (x : Core) : (s.setCore i x).srHeld = s.srHeld := rfl
@[simp] theorem State.portQ_setCore (s : State) (i : Nat) (x : Core) : (s.setCore i x).portQ = s.portQ := rfl
@[simp] theorem State.portGave_setCore (s : State) (i : Nat) (x : Core) : (s.setCore i x).portGave = s.portGave := rfl
@[simp] theorem State.deadEdges_setCore (s : State) (i : Nat) (x : Core) : (s.setCore i x).deadEdges = s.deadEdges := rfl
@[simp] theorem State.deadPorts_setCore (s : State) (i : Nat) (x : Core) : (s.setCore i x).deadPorts = s.deadPorts := rfl
@[simp] theorem State.throttled_setCore (s : State) (i : Nat) (x : Core) : (s.setCore i x).throttled = s.throttled := rfl
@[simp] theorem State.gpStopped_setCore (s : State) (i : Nat) (x : Core) : (s.setCore i x).gpStopped = s.gpStopped := rfl
@[simp] theorem State.msix_setCore (s : State) (i : Nat) (x : Core) : (s.setCore i x).msix = s.msix := rfl
@[simp] theorem State.intReq_setCore (s : State) (i : Nat) (x : Core) : (s.setCore i x).intReq = s.intReq := rfl
@[simp] theorem State.notified_setCore (s : State) (i : Nat) (x : Core) : (s.setCore i x).notified = s.notified := rfl
@[simp] theorem State.heldOut_setCore (s : State) (i : Nat) (x : Core) : (s.setCore i x).heldOut = s.heldOut := rfl
@[simp] theorem State.dbgSaving_setCore (s : State) (i : Nat) (x : Core) : (s.setCore i x).dbgSaving = s.dbgSaving := rfl
@[simp] theorem State.ctx_setCore (s : State) (i : Nat) (x : Core) (j : Nat) : (s.setCore i x).ctx j = s.ctx j := rfl
@[simp] theorem State.wharf_setCore (s : State) (i : Nat) (x : Core) (j : Nat) : (s.setCore i x).wharf j = s.wharf j := rfl
@[simp] theorem State.keeper_setCore (s : State) (i : Nat) (x : Core) (j : Nat) : (s.setCore i x).keeper j = s.keeper j := rfl

/-! ## setWharf -/

@[simp] theorem State.wharf_setWharf (s : State) (i : Nat) (x : Wharf) (j : Nat) :
    (s.setWharf i x).wharf j = if j = i then x else s.wharf j := NMap.get_put ..
@[simp] theorem State.inbox_setWharf (s : State) (i : Nat) (x : Wharf) : (s.setWharf i x).inbox = s.inbox := rfl
@[simp] theorem State.powered_setWharf (s : State) (i : Nat) (x : Wharf) : (s.setWharf i x).powered = s.powered := rfl
@[simp] theorem State.wall_setWharf (s : State) (i : Nat) (x : Wharf) : (s.setWharf i x).wall = s.wall := rfl
@[simp] theorem State.cur_setWharf (s : State) (i : Nat) (x : Wharf) : (s.setWharf i x).cur = s.cur := rfl
@[simp] theorem State.nextId_setWharf (s : State) (i : Nat) (x : Wharf) : (s.setWharf i x).nextId = s.nextId := rfl
@[simp] theorem State.iss_setWharf (s : State) (i : Nat) (x : Wharf) : (s.setWharf i x).iss = s.iss := rfl
@[simp] theorem State.ctxs_setWharf (s : State) (i : Nat) (x : Wharf) : (s.setWharf i x).ctxs = s.ctxs := rfl
@[simp] theorem State.cores_setWharf (s : State) (i : Nat) (x : Wharf) : (s.setWharf i x).cores = s.cores := rfl
@[simp] theorem State.keepers_setWharf (s : State) (i : Nat) (x : Wharf) : (s.setWharf i x).keepers = s.keepers := rfl
@[simp] theorem State.launches_setWharf (s : State) (i : Nat) (x : Wharf) : (s.setWharf i x).launches = s.launches := rfl
@[simp] theorem State.completed_setWharf (s : State) (i : Nat) (x : Wharf) : (s.setWharf i x).completed = s.completed := rfl
@[simp] theorem State.lastPart_setWharf (s : State) (i : Nat) (x : Wharf) : (s.setWharf i x).lastPart = s.lastPart := rfl
@[simp] theorem State.bindings_setWharf (s : State) (i : Nat) (x : Wharf) : (s.setWharf i x).bindings = s.bindings := rfl
@[simp] theorem State.flits_setWharf (s : State) (i : Nat) (x : Wharf) : (s.setWharf i x).flits = s.flits := rfl
@[simp] theorem State.saved_setWharf (s : State) (i : Nat) (x : Wharf) : (s.setWharf i x).saved = s.saved := rfl
@[simp] theorem State.packets_setWharf (s : State) (i : Nat) (x : Wharf) : (s.setWharf i x).packets = s.packets := rfl
@[simp] theorem State.outbound_setWharf (s : State) (i : Nat) (x : Wharf) : (s.setWharf i x).outbound = s.outbound := rfl
@[simp] theorem State.seqs_setWharf (s : State) (i : Nat) (x : Wharf) : (s.setWharf i x).seqs = s.seqs := rfl
@[simp] theorem State.mem_setWharf (s : State) (i : Nat) (x : Wharf) : (s.setWharf i x).mem = s.mem := rfl
@[simp] theorem State.marks_setWharf (s : State) (i : Nat) (x : Wharf) : (s.setWharf i x).marks = s.marks := rfl
@[simp] theorem State.tlbs_setWharf (s : State) (i : Nat) (x : Wharf) : (s.setWharf i x).tlbs = s.tlbs := rfl
@[simp] theorem State.pageReqs_setWharf (s : State) (i : Nat) (x : Wharf) : (s.setWharf i x).pageReqs = s.pageReqs := rfl
@[simp] theorem State.unmappable_setWharf (s : State) (i : Nat) (x : Wharf) : (s.setWharf i x).unmappable = s.unmappable := rfl
@[simp] theorem State.spaces_setWharf (s : State) (i : Nat) (x : Wharf) : (s.setWharf i x).spaces = s.spaces := rfl
@[simp] theorem State.access_setWharf (s : State) (i : Nat) (x : Wharf) : (s.setWharf i x).access = s.access := rfl
@[simp] theorem State.slots_setWharf (s : State) (i : Nat) (x : Wharf) : (s.setWharf i x).slots = s.slots := rfl
@[simp] theorem State.slotAt_setWharf (s : State) (i : Nat) (x : Wharf) : (s.setWharf i x).slotAt = s.slotAt := rfl
@[simp] theorem State.turnSlots_setWharf (s : State) (i : Nat) (x : Wharf) : (s.setWharf i x).turnSlots = s.turnSlots := rfl
@[simp] theorem State.grantLog_setWharf (s : State) (i : Nat) (x : Wharf) : (s.setWharf i x).grantLog = s.grantLog := rfl
@[simp] theorem State.pools_setWharf (s : State) (i : Nat) (x : Wharf) : (s.setWharf i x).pools = s.pools := rfl
@[simp] theorem State.ndesc_setWharf (s : State) (i : Nat) (x : Wharf) : (s.setWharf i x).ndesc = s.ndesc := rfl
@[simp] theorem State.tier_setWharf (s : State) (i : Nat) (x : Wharf) : (s.setWharf i x).tier = s.tier := rfl
@[simp] theorem State.admitted_setWharf (s : State) (i : Nat) (x : Wharf) : (s.setWharf i x).admitted = s.admitted := rfl
@[simp] theorem State.beat_setWharf (s : State) (i : Nat) (x : Wharf) : (s.setWharf i x).beat = s.beat := rfl
@[simp] theorem State.cadmit_setWharf (s : State) (i : Nat) (x : Wharf) : (s.setWharf i x).cadmit = s.cadmit := rfl
@[simp] theorem State.cbeat_setWharf (s : State) (i : Nat) (x : Wharf) : (s.setWharf i x).cbeat = s.cbeat := rfl
@[simp] theorem State.abound_setWharf (s : State) (i : Nat) (x : Wharf) : (s.setWharf i x).abound = s.abound := rfl
@[simp] theorem State.bbound_setWharf (s : State) (i : Nat) (x : Wharf) : (s.setWharf i x).bbound = s.bbound := rfl
@[simp] theorem State.imported_setWharf (s : State) (i : Nat) (x : Wharf) : (s.setWharf i x).imported = s.imported := rfl
@[simp] theorem State.gen_setWharf (s : State) (i : Nat) (x : Wharf) : (s.setWharf i x).gen = s.gen := rfl
@[simp] theorem State.stmtSeq_setWharf (s : State) (i : Nat) (x : Wharf) : (s.setWharf i x).stmtSeq = s.stmtSeq := rfl
@[simp] theorem State.stmtPrev_setWharf (s : State) (i : Nat) (x : Wharf) : (s.setWharf i x).stmtPrev = s.stmtPrev := rfl
@[simp] theorem State.committed_setWharf (s : State) (i : Nat) (x : Wharf) : (s.setWharf i x).committed = s.committed := rfl
@[simp] theorem State.gapFlag_setWharf (s : State) (i : Nat) (x : Wharf) : (s.setWharf i x).gapFlag = s.gapFlag := rfl
@[simp] theorem State.kmeas_setWharf (s : State) (i : Nat) (x : Wharf) : (s.setWharf i x).kmeas = s.kmeas := rfl
@[simp] theorem State.stmts_setWharf (s : State) (i : Nat) (x : Wharf) : (s.setWharf i x).stmts = s.stmts := rfl
@[simp] theorem State.bootStep_setWharf (s : State) (i : Nat) (x : Wharf) : (s.setWharf i x).bootStep = s.bootStep := rfl
@[simp] theorem State.closed_setWharf (s : State) (i : Nat) (x : Wharf) : (s.setWharf i x).closed = s.closed := rfl
@[simp] theorem State.final_setWharf (s : State) (i : Nat) (x : Wharf) : (s.setWharf i x).final = s.final := rfl
@[simp] theorem State.mr_setWharf (s : State) (i : Nat) (x : Wharf) : (s.setWharf i x).mr = s.mr := rfl
@[simp] theorem State.quiescing_setWharf (s : State) (i : Nat) (x : Wharf) : (s.setWharf i x).quiescing = s.quiescing := rfl
@[simp] theorem State.shooting_setWharf (s : State) (i : Nat) (x : Wharf) : (s.setWharf i x).shooting = s.shooting := rfl
@[simp] theorem State.evSeq_setWharf (s : State) (i : Nat) (x : Wharf) : (s.setWharf i x).evSeq = s.evSeq := rfl
@[simp] theorem State.selfRef_setWharf (s : State) (i : Nat) (x : Wharf) : (s.setWharf i x).selfRef = s.selfRef := rfl
@[simp] theorem State.srHeld_setWharf (s : State) (i : Nat) (x : Wharf) : (s.setWharf i x).srHeld = s.srHeld := rfl
@[simp] theorem State.portQ_setWharf (s : State) (i : Nat) (x : Wharf) : (s.setWharf i x).portQ = s.portQ := rfl
@[simp] theorem State.portGave_setWharf (s : State) (i : Nat) (x : Wharf) : (s.setWharf i x).portGave = s.portGave := rfl
@[simp] theorem State.deadEdges_setWharf (s : State) (i : Nat) (x : Wharf) : (s.setWharf i x).deadEdges = s.deadEdges := rfl
@[simp] theorem State.deadPorts_setWharf (s : State) (i : Nat) (x : Wharf) : (s.setWharf i x).deadPorts = s.deadPorts := rfl
@[simp] theorem State.throttled_setWharf (s : State) (i : Nat) (x : Wharf) : (s.setWharf i x).throttled = s.throttled := rfl
@[simp] theorem State.gpStopped_setWharf (s : State) (i : Nat) (x : Wharf) : (s.setWharf i x).gpStopped = s.gpStopped := rfl
@[simp] theorem State.msix_setWharf (s : State) (i : Nat) (x : Wharf) : (s.setWharf i x).msix = s.msix := rfl
@[simp] theorem State.intReq_setWharf (s : State) (i : Nat) (x : Wharf) : (s.setWharf i x).intReq = s.intReq := rfl
@[simp] theorem State.notified_setWharf (s : State) (i : Nat) (x : Wharf) : (s.setWharf i x).notified = s.notified := rfl
@[simp] theorem State.heldOut_setWharf (s : State) (i : Nat) (x : Wharf) : (s.setWharf i x).heldOut = s.heldOut := rfl
@[simp] theorem State.dbgSaving_setWharf (s : State) (i : Nat) (x : Wharf) : (s.setWharf i x).dbgSaving = s.dbgSaving := rfl
@[simp] theorem State.ctx_setWharf (s : State) (i : Nat) (x : Wharf) (j : Nat) : (s.setWharf i x).ctx j = s.ctx j := rfl
@[simp] theorem State.core_setWharf (s : State) (i : Nat) (x : Wharf) (j : Nat) : (s.setWharf i x).core j = s.core j := rfl
@[simp] theorem State.keeper_setWharf (s : State) (i : Nat) (x : Wharf) (j : Nat) : (s.setWharf i x).keeper j = s.keeper j := rfl

/-! ## setKeeper -/

@[simp] theorem State.keeper_setKeeper (s : State) (i : Nat) (x : Keeper) (j : Nat) :
    (s.setKeeper i x).keeper j = if j = i then x else s.keeper j := NMap.get_put ..
@[simp] theorem State.inbox_setKeeper (s : State) (i : Nat) (x : Keeper) : (s.setKeeper i x).inbox = s.inbox := rfl
@[simp] theorem State.powered_setKeeper (s : State) (i : Nat) (x : Keeper) : (s.setKeeper i x).powered = s.powered := rfl
@[simp] theorem State.wall_setKeeper (s : State) (i : Nat) (x : Keeper) : (s.setKeeper i x).wall = s.wall := rfl
@[simp] theorem State.cur_setKeeper (s : State) (i : Nat) (x : Keeper) : (s.setKeeper i x).cur = s.cur := rfl
@[simp] theorem State.nextId_setKeeper (s : State) (i : Nat) (x : Keeper) : (s.setKeeper i x).nextId = s.nextId := rfl
@[simp] theorem State.iss_setKeeper (s : State) (i : Nat) (x : Keeper) : (s.setKeeper i x).iss = s.iss := rfl
@[simp] theorem State.ctxs_setKeeper (s : State) (i : Nat) (x : Keeper) : (s.setKeeper i x).ctxs = s.ctxs := rfl
@[simp] theorem State.cores_setKeeper (s : State) (i : Nat) (x : Keeper) : (s.setKeeper i x).cores = s.cores := rfl
@[simp] theorem State.wharfs_setKeeper (s : State) (i : Nat) (x : Keeper) : (s.setKeeper i x).wharfs = s.wharfs := rfl
@[simp] theorem State.launches_setKeeper (s : State) (i : Nat) (x : Keeper) : (s.setKeeper i x).launches = s.launches := rfl
@[simp] theorem State.completed_setKeeper (s : State) (i : Nat) (x : Keeper) : (s.setKeeper i x).completed = s.completed := rfl
@[simp] theorem State.lastPart_setKeeper (s : State) (i : Nat) (x : Keeper) : (s.setKeeper i x).lastPart = s.lastPart := rfl
@[simp] theorem State.bindings_setKeeper (s : State) (i : Nat) (x : Keeper) : (s.setKeeper i x).bindings = s.bindings := rfl
@[simp] theorem State.flits_setKeeper (s : State) (i : Nat) (x : Keeper) : (s.setKeeper i x).flits = s.flits := rfl
@[simp] theorem State.saved_setKeeper (s : State) (i : Nat) (x : Keeper) : (s.setKeeper i x).saved = s.saved := rfl
@[simp] theorem State.packets_setKeeper (s : State) (i : Nat) (x : Keeper) : (s.setKeeper i x).packets = s.packets := rfl
@[simp] theorem State.outbound_setKeeper (s : State) (i : Nat) (x : Keeper) : (s.setKeeper i x).outbound = s.outbound := rfl
@[simp] theorem State.seqs_setKeeper (s : State) (i : Nat) (x : Keeper) : (s.setKeeper i x).seqs = s.seqs := rfl
@[simp] theorem State.mem_setKeeper (s : State) (i : Nat) (x : Keeper) : (s.setKeeper i x).mem = s.mem := rfl
@[simp] theorem State.marks_setKeeper (s : State) (i : Nat) (x : Keeper) : (s.setKeeper i x).marks = s.marks := rfl
@[simp] theorem State.tlbs_setKeeper (s : State) (i : Nat) (x : Keeper) : (s.setKeeper i x).tlbs = s.tlbs := rfl
@[simp] theorem State.pageReqs_setKeeper (s : State) (i : Nat) (x : Keeper) : (s.setKeeper i x).pageReqs = s.pageReqs := rfl
@[simp] theorem State.unmappable_setKeeper (s : State) (i : Nat) (x : Keeper) : (s.setKeeper i x).unmappable = s.unmappable := rfl
@[simp] theorem State.spaces_setKeeper (s : State) (i : Nat) (x : Keeper) : (s.setKeeper i x).spaces = s.spaces := rfl
@[simp] theorem State.access_setKeeper (s : State) (i : Nat) (x : Keeper) : (s.setKeeper i x).access = s.access := rfl
@[simp] theorem State.slots_setKeeper (s : State) (i : Nat) (x : Keeper) : (s.setKeeper i x).slots = s.slots := rfl
@[simp] theorem State.slotAt_setKeeper (s : State) (i : Nat) (x : Keeper) : (s.setKeeper i x).slotAt = s.slotAt := rfl
@[simp] theorem State.turnSlots_setKeeper (s : State) (i : Nat) (x : Keeper) : (s.setKeeper i x).turnSlots = s.turnSlots := rfl
@[simp] theorem State.grantLog_setKeeper (s : State) (i : Nat) (x : Keeper) : (s.setKeeper i x).grantLog = s.grantLog := rfl
@[simp] theorem State.pools_setKeeper (s : State) (i : Nat) (x : Keeper) : (s.setKeeper i x).pools = s.pools := rfl
@[simp] theorem State.ndesc_setKeeper (s : State) (i : Nat) (x : Keeper) : (s.setKeeper i x).ndesc = s.ndesc := rfl
@[simp] theorem State.tier_setKeeper (s : State) (i : Nat) (x : Keeper) : (s.setKeeper i x).tier = s.tier := rfl
@[simp] theorem State.admitted_setKeeper (s : State) (i : Nat) (x : Keeper) : (s.setKeeper i x).admitted = s.admitted := rfl
@[simp] theorem State.beat_setKeeper (s : State) (i : Nat) (x : Keeper) : (s.setKeeper i x).beat = s.beat := rfl
@[simp] theorem State.cadmit_setKeeper (s : State) (i : Nat) (x : Keeper) : (s.setKeeper i x).cadmit = s.cadmit := rfl
@[simp] theorem State.cbeat_setKeeper (s : State) (i : Nat) (x : Keeper) : (s.setKeeper i x).cbeat = s.cbeat := rfl
@[simp] theorem State.abound_setKeeper (s : State) (i : Nat) (x : Keeper) : (s.setKeeper i x).abound = s.abound := rfl
@[simp] theorem State.bbound_setKeeper (s : State) (i : Nat) (x : Keeper) : (s.setKeeper i x).bbound = s.bbound := rfl
@[simp] theorem State.imported_setKeeper (s : State) (i : Nat) (x : Keeper) : (s.setKeeper i x).imported = s.imported := rfl
@[simp] theorem State.gen_setKeeper (s : State) (i : Nat) (x : Keeper) : (s.setKeeper i x).gen = s.gen := rfl
@[simp] theorem State.stmtSeq_setKeeper (s : State) (i : Nat) (x : Keeper) : (s.setKeeper i x).stmtSeq = s.stmtSeq := rfl
@[simp] theorem State.stmtPrev_setKeeper (s : State) (i : Nat) (x : Keeper) : (s.setKeeper i x).stmtPrev = s.stmtPrev := rfl
@[simp] theorem State.committed_setKeeper (s : State) (i : Nat) (x : Keeper) : (s.setKeeper i x).committed = s.committed := rfl
@[simp] theorem State.gapFlag_setKeeper (s : State) (i : Nat) (x : Keeper) : (s.setKeeper i x).gapFlag = s.gapFlag := rfl
@[simp] theorem State.kmeas_setKeeper (s : State) (i : Nat) (x : Keeper) : (s.setKeeper i x).kmeas = s.kmeas := rfl
@[simp] theorem State.stmts_setKeeper (s : State) (i : Nat) (x : Keeper) : (s.setKeeper i x).stmts = s.stmts := rfl
@[simp] theorem State.bootStep_setKeeper (s : State) (i : Nat) (x : Keeper) : (s.setKeeper i x).bootStep = s.bootStep := rfl
@[simp] theorem State.closed_setKeeper (s : State) (i : Nat) (x : Keeper) : (s.setKeeper i x).closed = s.closed := rfl
@[simp] theorem State.final_setKeeper (s : State) (i : Nat) (x : Keeper) : (s.setKeeper i x).final = s.final := rfl
@[simp] theorem State.mr_setKeeper (s : State) (i : Nat) (x : Keeper) : (s.setKeeper i x).mr = s.mr := rfl
@[simp] theorem State.quiescing_setKeeper (s : State) (i : Nat) (x : Keeper) : (s.setKeeper i x).quiescing = s.quiescing := rfl
@[simp] theorem State.shooting_setKeeper (s : State) (i : Nat) (x : Keeper) : (s.setKeeper i x).shooting = s.shooting := rfl
@[simp] theorem State.evSeq_setKeeper (s : State) (i : Nat) (x : Keeper) : (s.setKeeper i x).evSeq = s.evSeq := rfl
@[simp] theorem State.selfRef_setKeeper (s : State) (i : Nat) (x : Keeper) : (s.setKeeper i x).selfRef = s.selfRef := rfl
@[simp] theorem State.srHeld_setKeeper (s : State) (i : Nat) (x : Keeper) : (s.setKeeper i x).srHeld = s.srHeld := rfl
@[simp] theorem State.portQ_setKeeper (s : State) (i : Nat) (x : Keeper) : (s.setKeeper i x).portQ = s.portQ := rfl
@[simp] theorem State.portGave_setKeeper (s : State) (i : Nat) (x : Keeper) : (s.setKeeper i x).portGave = s.portGave := rfl
@[simp] theorem State.deadEdges_setKeeper (s : State) (i : Nat) (x : Keeper) : (s.setKeeper i x).deadEdges = s.deadEdges := rfl
@[simp] theorem State.deadPorts_setKeeper (s : State) (i : Nat) (x : Keeper) : (s.setKeeper i x).deadPorts = s.deadPorts := rfl
@[simp] theorem State.throttled_setKeeper (s : State) (i : Nat) (x : Keeper) : (s.setKeeper i x).throttled = s.throttled := rfl
@[simp] theorem State.gpStopped_setKeeper (s : State) (i : Nat) (x : Keeper) : (s.setKeeper i x).gpStopped = s.gpStopped := rfl
@[simp] theorem State.msix_setKeeper (s : State) (i : Nat) (x : Keeper) : (s.setKeeper i x).msix = s.msix := rfl
@[simp] theorem State.intReq_setKeeper (s : State) (i : Nat) (x : Keeper) : (s.setKeeper i x).intReq = s.intReq := rfl
@[simp] theorem State.notified_setKeeper (s : State) (i : Nat) (x : Keeper) : (s.setKeeper i x).notified = s.notified := rfl
@[simp] theorem State.heldOut_setKeeper (s : State) (i : Nat) (x : Keeper) : (s.setKeeper i x).heldOut = s.heldOut := rfl
@[simp] theorem State.dbgSaving_setKeeper (s : State) (i : Nat) (x : Keeper) : (s.setKeeper i x).dbgSaving = s.dbgSaving := rfl
@[simp] theorem State.ctx_setKeeper (s : State) (i : Nat) (x : Keeper) (j : Nat) : (s.setKeeper i x).ctx j = s.ctx j := rfl
@[simp] theorem State.core_setKeeper (s : State) (i : Nat) (x : Keeper) (j : Nat) : (s.setKeeper i x).core j = s.core j := rfl
@[simp] theorem State.wharf_setKeeper (s : State) (i : Nat) (x : Keeper) (j : Nat) : (s.setKeeper i x).wharf j = s.wharf j := rfl

end Sys2Proof.Machine
end

