-- ==== Sys2Proof/Laws/Keep.lean ====
section
/-! SUPPORT. The canonical form of every memory of the device as an invariant: its shape, and the shared operations, which keep
it. -/

namespace Sys2Proof.Machine

/-- The form of a compressed page. -/
def okTier (p : TierPage) : Bool := Mem.wf p.bytes && p.bytes.all (fun b => decide (b.1 < 2 ^ 28))
/-- The form of a core's memories. -/
def okCore (k : Core) : Bool := Mem.wf k.tile && Mem.wf k.hold
/-- The form of a hart's memories. -/
def okHart (h : Hart) : Bool := Mem.wf h.fw && Mem.wf h.rt
/-- The form of a lock-keeper's memories. -/
def okKeeper (k : Keeper) : Bool := k.harts.all (fun h => okHart h.2)
/-- `memOK` by the four fields that it reads. -/
def okParts (m : Mem) (t : NMap TierPage) (c : NMap Core) (k : NMap Keeper) : Bool :=
  (Mem.wf m && t.all (fun e => okTier e.2)) && c.all (fun e => okCore e.2) && k.all (fun e => okKeeper e.2)
/-- The state that a step leads to keeps the form. -/
def okOut (o : Host.Outcome State Fault Refusal) : Bool := match o with | .next t => t.memOK | _ => true
/-- See `okOut`. -/
def okOpt (o : Option State) : Bool := match o with | some t => t.memOK | none => true

@[simp] theorem memOK_mk (f_inbox : List Instr) (f_powered : Bool) (f_wall : Nat) (f_cur : Nat) (f_nextId : Nat)
    (f_iss : Iss) (f_ctxs : NMap Ctx) (f_cores : NMap Core) (f_wharfs : NMap Wharf) (f_keepers : NMap Keeper)
    (f_launches : List Launch) (f_completed : List (Nat × Word × Nat × Nat)) (f_lastPart : NMap Nat) (f_bindings :
    List Nat) (f_flits : List Flit) (f_saved : List Saved) (f_packets : List Packet) (f_outbound : List Out) (f_seqs :
    List SeqRec) (f_mem : Mem) (f_marks : NMap (BitVec 64)) (f_tlbs : List Tlb) (f_pageReqs : List (Nat × Nat × Nat))
    (f_unmappable : List (Nat × Nat)) (f_spaces : NMap (BitVec 128)) (f_access : NMap (BitVec 16)) (f_slots : NMap
    (BitVec 8)) (f_slotAt : NMap Nat) (f_turnSlots : NMap (BitVec 8)) (f_grantLog : NMap Nat) (f_pools : NMap (List
    Nat)) (f_ndesc : Nat) (f_tier : NMap TierPage) (f_admitted : NMap Nat) (f_beat : NMap Nat) (f_cadmit : NMap Nat)
    (f_cbeat : NMap Nat) (f_abound : Nat) (f_bbound : Nat) (f_imported : List Nat) (f_gen : Nat) (f_stmtSeq : Nat)
    (f_stmtPrev : BitVec 256) (f_committed : Nat) (f_gapFlag : Bool) (f_kmeas : BitVec 256) (f_stmts : List (Nat ×
    NMap Nat × NMap Nat)) (f_bootStep : Nat) (f_closed : Bool) (f_final : Bool) (f_mr : NMap Word) (f_quiescing : List
    Nat) (f_shooting : List (Nat × Nat × Nat)) (f_evSeq : BitVec 32) (f_selfRef : BitVec 8) (f_srHeld : NMap (List
    Held)) (f_portQ : List PortReq) (f_portGave : List (Option (List Byte))) (f_deadEdges : List (BitVec 4))
    (f_deadPorts : List Nat) (f_throttled : Bool) (f_gpStopped : List Nat) (f_msix : List Nat) (f_intReq : List Nat)
    (f_notified : List Nat) (f_heldOut : List (Bool × List Byte)) (f_dbgSaving : Option Nat) :
State.memOK ⟨f_inbox, f_powered, f_wall, f_cur, f_nextId, f_iss, f_ctxs, f_cores, f_wharfs, f_keepers, f_launches,
    f_completed, f_lastPart, f_bindings, f_flits, f_saved, f_packets, f_outbound, f_seqs, f_mem, f_marks, f_tlbs,
    f_pageReqs, f_unmappable, f_spaces, f_access, f_slots, f_slotAt, f_turnSlots, f_grantLog, f_pools, f_ndesc,
    f_tier, f_admitted, f_beat, f_cadmit, f_cbeat, f_abound, f_bbound, f_imported, f_gen, f_stmtSeq, f_stmtPrev,
    f_committed, f_gapFlag, f_kmeas, f_stmts, f_bootStep, f_closed, f_final, f_mr, f_quiescing, f_shooting, f_evSeq,
    f_selfRef, f_srHeld, f_portQ, f_portGave, f_deadEdges, f_deadPorts, f_throttled, f_gpStopped, f_msix, f_intReq,
    f_notified, f_heldOut, f_dbgSaving⟩ = okParts f_mem f_tier f_cores f_keepers := rfl
@[simp] theorem okParts_self (s : State) : okParts s.mem s.tier s.cores s.keepers = s.memOK := rfl
@[simp] theorem okCore_mk (f_tile : Mem) (f_tmarks : NMap (BitVec 64)) (f_hold : Mem) (f_hmarks : NMap (BitVec 64))
    (f_htags : NMap Nat) (f_bayTag : NMap Fmt) (f_planes : NMap Plane) (f_heldBy : NMap Word) (f_left : List Left)
    (f_cmds : List Cmd) (f_width : Nat) (f_run : Nat) (f_idle : Bool) (f_ready : List Nat) (f_preempt : Option Nat)
    (f_grants : List Grant) :
okCore ⟨f_tile, f_tmarks, f_hold, f_hmarks, f_htags, f_bayTag, f_planes, f_heldBy, f_left, f_cmds, f_width, f_run,
    f_idle, f_ready, f_preempt, f_grants⟩ = (Mem.wf f_tile && Mem.wf f_hold) := rfl
@[simp] theorem okCore_self (k : Core) : (Mem.wf k.tile && Mem.wf k.hold) = okCore k := rfl
@[simp] theorem okHart_mk (f_launch : Option Word) (f_stopped : Bool) (f_x : NMap Word) (f_f : NMap Word) (f_v : NMap
    (BitVec 1024)) (f_pc : Word) (f_mie : Bool) (f_fpOn : Bool) (f_vecOn : Bool) (f_mtvec : Word) (f_satp : Word)
    (f_fw : Mem) (f_ring : List (BitVec 512)) (f_head : BitVec 32) (f_tail : BitVec 32) (f_emitted : Word) (f_waiting
    : List (BitVec 512 × List (BitVec 32))) (f_rt : Mem) :
okHart ⟨f_launch, f_stopped, f_x, f_f, f_v, f_pc, f_mie, f_fpOn, f_vecOn, f_mtvec, f_satp, f_fw, f_ring, f_head,
    f_tail, f_emitted, f_waiting, f_rt⟩ = (Mem.wf f_fw && Mem.wf f_rt) := rfl
@[simp] theorem okHart_self (h : Hart) : (Mem.wf h.fw && Mem.wf h.rt) = okHart h := rfl
@[simp] theorem okKeeper_mk (f_harts : NMap Hart) (f_accs : List Accum) (f_buf : List Packet) (f_emits : List Emit)
    (f_spill : List (Word × Nat)) (f_stopped : Bool) :
okKeeper ⟨f_harts, f_accs, f_buf, f_emits, f_spill, f_stopped⟩ = f_harts.all (fun h => okHart h.2) := rfl
@[simp] theorem okKeeper_self (k : Keeper) : k.harts.all (fun h => okHart h.2) = okKeeper k := rfl
@[simp] theorem okOut_next (s : State) : okOut (.next s) = s.memOK := rfl
@[simp] theorem okOpt_some (s : State) : okOpt (some s) = s.memOK := rfl
@[simp] theorem okOpt_none : okOpt none = true := rfl
@[simp] theorem okCore_init : okCore Core.init = true := rfl
@[simp] theorem okHart_init : okHart Hart.init = true := rfl
@[simp] theorem okKeeper_init : okKeeper Keeper.init = true := rfl

theorem okParts_iff (m : Mem) (t : NMap TierPage) (c : NMap Core) (k : NMap Keeper) : okParts m t c k = true ↔
    Mem.wf m = true ∧ t.all (fun e => okTier e.2) = true ∧ c.all (fun e => okCore e.2) = true ∧
      k.all (fun e => okKeeper e.2) = true := by
  simp only [okParts, Bool.and_eq_true]; tauto
theorem memOK_iff (s : State) : s.memOK = true ↔
    Mem.wf s.mem = true ∧ s.tier.all (fun e => okTier e.2) = true ∧ s.cores.all (fun e => okCore e.2) = true ∧
      s.keepers.all (fun e => okKeeper e.2) = true := by rw [← okParts_self, okParts_iff]

/-! ## Maps -/

theorem all_put {α : Type} {p : α → Bool} {m : NMap α} (h : m.all (fun e => p e.2) = true) (n : Nat) {a : α} (ha : p a = true) :
    (NMap.put m n a).all (fun e => p e.2) = true := by
  rw [List.all_eq_true] at *
  intro e he
  rcases NMap.mem_put he with rfl | he
  · exact ha
  · exact h e he
theorem all_get {α : Type} {p : α → Bool} {d : α} {m : NMap α} (h : m.all (fun e => p e.2) = true) (hd : p d = true) (n : Nat) :
    p (NMap.get d m n) = true := by
  rw [List.all_eq_true] at h
  rcases NMap.get_cases d m n with e | e
  · rw [e]; exact hd
  · exact h _ e
theorem all_map {α : Type} {p : α → Bool} {m : NMap α} (h : m.all (fun e => p e.2) = true) (f : Nat × α → α)
    (hf : ∀ e, p e.2 = true → p (f e) = true) : NMap α → (m.map (fun e => (e.1, f e))).all (fun e => p e.2) = true := by
  intro _
  rw [List.all_eq_true] at *
  intro e he
  obtain ⟨x, hx, rfl⟩ := List.mem_map.1 he
  exact hf x (h x hx)
theorem all_filter {α : Type} {p : α → Bool} {m : NMap α} (h : m.all (fun e => p e.2) = true) (q : Nat × α → Bool) :
    (m.filter q).all (fun e => p e.2) = true := by
  rw [List.all_eq_true] at *
  intro e he
  exact h e (List.mem_filter.1 he).1
theorem all_del {α : Type} {p : α → Bool} {m : NMap α} (h : m.all (fun e => p e.2) = true) (n : Nat) :
    (NMap.del m n).all (fun e => p e.2) = true := all_filter h _

/-! ## Cores, lock-keepers and memory -/

@[simp] theorem ok_core {s : State} (h : s.memOK = true) (k : Nat) : okCore (s.core k) = true :=
  all_get ((memOK_iff s).1 h).2.2.1 rfl k
@[simp] theorem ok_keeper {s : State} (h : s.memOK = true) (k : Nat) : okKeeper (s.keeper k) = true :=
  all_get ((memOK_iff s).1 h).2.2.2 rfl k
@[simp] theorem ok_hart {k : Keeper} (h : okKeeper k = true) (n : Nat) : okHart (NMap.get Hart.init k.harts n) = true := all_get h rfl n
@[simp] theorem ok_putHart {k : Keeper} (h : okKeeper k = true) (n : Nat) {x : Hart} (hx : okHart x = true) :
    (NMap.put k.harts n x).all (fun h => okHart h.2) = true := all_put h n hx
@[simp] theorem ok_setCtx (s : State) (c : Nat) (x : Ctx) : (s.setCtx c x).memOK = s.memOK := rfl
@[simp] theorem ok_setWharf (s : State) (c : Nat) (x : Wharf) : (s.setWharf c x).memOK = s.memOK := rfl
@[simp] theorem ok_setCore {s : State} (h : s.memOK = true) (c : Nat) {x : Core} (hx : okCore x = true) : (s.setCore c x).memOK = true := by
  obtain ⟨a, b, d, e⟩ := (memOK_iff s).1 h
  exact (memOK_iff _).2 ⟨a, b, all_put d c hx, e⟩
@[simp] theorem ok_setKeeper {s : State} (h : s.memOK = true) (c : Nat) {x : Keeper} (hx : okKeeper x = true) :
    (s.setKeeper c x).memOK = true := by
  obtain ⟨a, b, d, e⟩ := (memOK_iff s).1 h
  exact (memOK_iff _).2 ⟨a, b, d, all_put e c hx⟩
@[simp] theorem ok_putTile {k : Core} (h : okCore k = true) (off : Nat) (bs : List Byte) : okCore (k.putTile off bs) = true := by
  simp only [okCore, Bool.and_eq_true] at h ⊢
  exact ⟨Mem.wf_write h.1 _ _, h.2⟩
@[simp] theorem ok_putHold {k : Core} (h : okCore k = true) (off : Nat) (bs : List Byte) : okCore (k.putHold off bs) = true := by
  simp only [okCore, Bool.and_eq_true] at h ⊢
  exact ⟨h.1, Mem.wf_write h.2 _ _⟩
@[simp] theorem ok_putMem {s : State} (h : s.memOK = true) (pa : Nat) (bs : List Byte) : (s.putMem pa bs).memOK = true := by
  obtain ⟨a, b, d, e⟩ := (memOK_iff s).1 h
  exact (memOK_iff _).2 ⟨Mem.wf_write a _ _, b, d, e⟩

/-- Folds keep the form where each turn does. -/
theorem ok_foldl {α : Type} {f : State → α → State} (hf : ∀ s a, s.memOK = true → (f s a).memOK = true) (l : List α) {s : State}
    (h : s.memOK = true) : (l.foldl f s).memOK = true := by
  induction l generalizing s with
  | nil => exact h
  | cons a t ih => exact ih (hf s a h)
/-- See `ok_foldl`. -/
theorem okCore_foldl {α : Type} {f : Core → α → Core} (hf : ∀ s a, okCore s = true → okCore (f s a) = true) (l : List α) {s : Core}
    (h : okCore s = true) : okCore (l.foldl f s) = true := by
  induction l generalizing s with
  | nil => exact h
  | cons a t ih => exact ih (hf s a h)

/-! ## Shared operations -/

@[simp] theorem ok_setCx (s : State) (x : Ctx) : (s.setCx x).memOK = s.memOK := rfl
@[simp] theorem ok_updCtx (s : State) (c : Nat) (f : Ctx → Ctx) : (s.updCtx c f).memOK = s.memOK := rfl
@[simp] theorem ok_ck {s : State} (h : s.memOK = true) : okCore s.ck = true := ok_core h _
@[simp] theorem ok_setCk {s : State} (h : s.memOK = true) {x : Core} (hx : okCore x = true) : (s.setCk x).memOK = true := ok_setCore h _ hx
@[simp] theorem ok_updCore {s : State} (h : s.memOK = true) (c : Nat) {f : Core → Core} (hf : okCore (f (s.core c)) = true) :
    (s.updCore c f).memOK = true := ok_setCore h _ hf
@[simp] theorem ok_fly (s : State) (n : Nat) (i : Item) : (s.fly n i).memOK = s.memOK := rfl
@[simp] theorem ok_land (s : State) (n d : Nat) (v : PVal) : (s.land n d v).memOK = s.memOK := rfl
@[simp] theorem ok_landS (s : State) (n d : Nat) (v : Word) : (s.landS n d v).memOK = s.memOK := rfl
@[simp] theorem ok_updLaunch (s : State) (w : Word) (f : Launch → Launch) : (s.updLaunch w f).memOK = s.memOK := rfl
@[simp] theorem ok_correctOf (s : State) (c : Nat) : (s.correctOf c).memOK = s.memOK := rfl
@[simp] theorem ok_taintOf (s : State) (c n : Nat) : (s.taintOf c n).memOK = s.memOK := rfl
@[simp] theorem ok_taintTile (s : State) (c a n : Nat) : (s.taintTile c a n).memOK = s.memOK := by unfold State.taintTile; split <;> simp
@[simp] theorem ok_takeTrap (s : State) (c : Nat) (e : BitVec 8) (d0 d1 : Word) (l a : Bool) (p : Nat) (b : Word) (n : Nat) (r : Word)
    (q : Nat) : (takeTrap s c e d0 d1 l a p b n r q).memOK = s.memOK := rfl
@[simp] theorem ok_trapHere (s : State) (c : Nat) (e : BitVec 8) (d0 d1 : Word) (l : Bool) (p : Nat) (b : Word) (n : Nat) :
    (trapHere s c e d0 d1 l p b n).memOK = s.memOK := rfl
@[simp] theorem ok_trapAfter (s : State) (e : BitVec 8) (w : Word) : (trapAfter s e w).memOK = s.memOK := rfl
@[simp] theorem ok_returnTo (s : State) (c : Nat) : (returnTo s c).memOK = s.memOK := by unfold returnTo; simp only; split <;> simp
@[simp] theorem ok_halt (s : State) (k : Stop) : (s.halt k).memOK = s.memOK := by unfold State.halt; cases k.kind <;> simp
theorem ok_issue {s : State} (h : s.memOK = true) (g : BitVec 4) (cls own : List (Option Stop)) {eff : State → State}
    (he : (eff s).memOK = true) : okOut (issue s g cls own eff) = true := by
  unfold issue; split
  · simp [h]
  · simp only [okOut_next]; split <;> assumption

/-! ## Addresses -/

@[simp] theorem ok_shootDown (s : State) (n : Nat) (p : Option Nat) : (s.shootDown n p).memOK = s.memOK := rfl
@[simp] theorem ok_setSlot (s : State) (t m j : Nat) (v : BitVec 16) : (s.setSlot t m j v).memOK = s.memOK := rfl
@[simp] theorem ok_giveSlot (s : State) (m n : Nat) : (s.giveSlot m n).memOK = s.memOK := by unfold State.giveSlot; split <;> (try split) <;> simp
@[simp] theorem ok_dropSlots (s : State) (n : Nat) : (s.dropSlots n).memOK = s.memOK := rfl
@[simp] theorem ok_fillTlb {s : State} (h : s.memOK = true) (m n a : Nat) : (s.fillTlb m n a).memOK = true := by
  unfold State.fillTlb
  split
  · exact h
  · split
    · exact h
    · exact h
    · split
      · exact h
      · obtain ⟨x, b, d, e⟩ := (memOK_iff s).1 h
        exact (memOK_iff _).2 ⟨Mem.wf_writeLE x _ _ _, b, d, e⟩
@[simp] theorem ok_giveFrame (s : State) (p f : Nat) : (s.giveFrame p f).memOK = s.memOK := by unfold State.giveFrame; split <;> simp
theorem ok_takeFrame {s t : State} {p f : Nat} (h : s.takeFrame p = some (f, t)) : t.memOK = s.memOK := by
  unfold State.takeFrame at h; split at h
  · cases h
  · cases h; simp

/-! ## Operands -/

@[simp] theorem ok_drainWrite {k : Core} (h : okCore k = true) (t : Stream) (b : Nat) (v : VVal) : okCore (drainWrite k t b v) = true :=
  okCore_foldl (fun _ _ h => ok_putTile h _ _) _ h
@[simp] theorem ok_afterRead {s : State} (h : s.memOK = true) (src : BitVec 10) : (s.afterRead src).memOK = true := by
  unfold State.afterRead
  simp only
  split
  · split
    · rw [ok_setCx]; exact ok_foldl (fun s a h => by simpa using h) _ h
    · exact h
  · exact h
@[simp] theorem ok_writeDst {s : State} (h : s.memOK = true) (d : BitVec 10) (v : SrcVal) : (s.writeDst d v).memOK = true := by
  unfold State.writeDst
  simp only
  repeat' split
  all_goals first
    | exact h
    | exact ok_updCore (by simpa using h) _ (ok_drainWrite (ok_core (by simpa using h) _) _ _ _)
theorem ok_trigger {s : State} (h : s.memOK = true) (g : BitVec 4) (src : BitVec 10) (cls own : List (Option Stop)) {eff : State → State}
    (he : ∀ t, t.memOK = true → (eff t).memOK = true) : okOut (trigger s g src cls own eff) = true :=
  ok_issue h _ _ _ (he _ (ok_afterRead h src))

/-! ## Events and rings -/

@[simp] theorem ok_setMreg (s : State) (o : Nat) (w : Word) : (s.setMreg o w).memOK = s.memOK := rfl
@[simp] theorem ok_holdAt (s : State) (n : Nat) (i : Held) : (s.holdAt n i).memOK = s.memOK := by
  unfold State.holdAt; simp only; split <;> rfl
@[simp] theorem ok_sendMem {s : State} (h : s.memOK = true) (pa : Nat) (bs : List Byte) : (s.sendMem pa bs).memOK = true := by
  unfold State.sendMem State.holdFor; split <;> simp [h]
@[simp] theorem ok_event {s : State} (h : s.memOK = true) (a b : Nat) (c d : Word) (n : Nat) : (s.event a b c d n).memOK = true := by
  unfold State.event; simp only; split <;> simp [h]
@[simp] theorem ok_corrected {s : State} (h : s.memOK = true) (a : Nat) (c d : Word) (n : Nat) : (s.corrected a c d n).memOK = true := by
  simp [State.corrected, h]
theorem ok_toRing {s t : State} (h : s.memOK = true) {a b c d e : Nat} {bs : List Byte} {v : Nat} (ht : s.toRing a b c d e bs v = some t) :
    t.memOK = true := by
  unfold State.toRing at ht
  simp only at ht
  split at ht
  · cases ht
  · cases ht; simp [h]
@[simp] theorem ok_completion {s : State} (h : s.memOK = true) (bs : List Byte) : (s.completion bs).memOK = true := by
  unfold State.completion; split
  · simp [h]
  · split
    · exact ok_toRing h ‹_›
    · simp [h]
@[simp] theorem ok_statement {s : State} (h : s.memOK = true) (bs : List Byte) : (s.statement bs).memOK = true := by
  unfold State.statement; split
  · simp [h]
  · split
    · exact ok_toRing h ‹_›
    · simp [h]
@[simp] theorem ok_flushOut {s : State} (h : s.memOK = true) : s.flushOut.memOK = true :=
  ok_foldl (fun s a h => by split <;> simp [h]) _ (by simpa using h)

end Sys2Proof.Machine
end

