-- ==== Sys2Proof/Laws/Kernel.lean ====
section
/-! SUPPORT. What the kernel's shared operations can do, each said once: giving out a frame, taking a record, a quiesce, the end of a
launch, a shoot-down (R292, R299, R337, R342, R348). -/

namespace Sys2Proof.Machine

/-- A run of frames that is given out was free in the pool as it stood, or as the search for frames has left it (R342). -/
theorem needRun_ok {s t : State} {part n f : Nat} {keep : List (Nat × Nat)} (h : needRun s part n keep = .ok (f, t)) :
    ∃ u, (u = s ∨ u = (reclaim s part n keep (s.reclaimList part)).1) ∧ u.findRun part n = some f ∧ t = u.dropRun part f n := by
  unfold needRun at h
  split at h
  · rename_i hg
    cases h
    exact ⟨s, .inl rfl, hg, rfl⟩
  · cases h
  · cases h
  · dsimp only at h
    split at h
    · cases h
    · rename_i g _ hg
      cases h
      exact ⟨_, .inr rfl, hg, rfl⟩
    · cases h

/-- Where no frame can be found, the state is the one that the search has left, and it has no run free (R342). -/
theorem needRun_spent {s t : State} {part n : Nat} {keep : List (Nat × Nat)} (h : needRun s part n keep = .error (.spent t)) :
    t = (reclaim s part n keep (s.reclaimList part)).1 ∧ t.findRun part n = none := by
  unfold needRun at h
  split at h
  · cases h
  · cases h
  · cases h
  · dsimp only at h
    split at h
    · cases h
    · cases h
    · rename_i hg
      cases h
      exact ⟨rfl, hg⟩

/-- A record that is taken is refused with a cause, or its launch has been set up (R292). -/
theorem takeRecord_some {s t : State} {r : BitVec 1024} (h : takeRecord s r = some t) :
    (∃ u cause, t = refuse u r cause) ∨ ∃ m, admitLaunch s r m = .done t := by
  unfold takeRecord at h
  split at h
  · cases h
    exact .inl ⟨_, _, rfl⟩
  · split at h
    · cases h
      exact .inl ⟨_, _, rfl⟩
    · rename_i m _
      split at h
      · cases h
      · cases h
        exact .inl ⟨_, _, rfl⟩
      · rename_i hm
        cases h
        exact .inr ⟨m, hm⟩

/-- A quiesce that has performed is that of the space, on the state as it stood or with its tasks stopped and its exchanges left
(R348). -/
theorem quiesceTurn_done {s : State} {spid : Nat} (h : (quiesceTurn s spid).2 = true) :
    ∃ u, (u = s ∨ u = leaveAqs (stopSpace s spid) spid) ∧ u.spaceAway spid = false ∧ (quiesceTurn s spid).1 = quiesceSpace u spid := by
  unfold quiesceTurn at h ⊢
  split
  · rename_i hs
    exact ⟨s, .inl rfl, by simpa using hs, rfl⟩
  · rename_i hs
    rw [if_neg hs] at h
    dsimp only at h ⊢
    split
    · rename_i ha
      rw [if_pos ha] at h
      cases h
    · rename_i ha
      exact ⟨_, .inr rfl, by simpa using ha, rfl⟩

/-- A launch that has been quiesced ends, or nothing happens (R299). -/
theorem settleEnd_cases (s : State) (l : Launch) : settleEnd s l = s ∨ settleEnd s l = endLaunch s l := by
  unfold settleEnd
  split
  · exact .inl rfl
  · exact .inr rfl

/-- A shoot-down leaves memory, contexts and cores as they are (R337). -/
theorem execShoot_frame {s t : State} {val : Word} (h : execShoot val s = .next t) :
    t.mem = s.mem ∧ t.ctxs = s.ctxs ∧ t.cores = s.cores := by
  unfold execShoot at h
  simp only [Host.Outcome.next.injEq] at h
  subst h
  split
  · exact ⟨rfl, rfl, rfl⟩
  · exact ⟨rfl, rfl, rfl⟩

end Sys2Proof.Machine
end

