-- ==== Sys2Proof/Laws/Ops.lean ====
section
/-! SUPPORT. What the shared operations of issue can do, each said once: the check that decides, a move's issue, the reading
of a source, and what lands later. -/

namespace Sys2Proof.Machine

/-! ## Checks -/

@[simp] theorem chk_false (k : Stop) : chk false k = none := rfl
@[simp] theorem chk_true (k : Stop) : chk true k = some k := rfl
@[simp] theorem chk_eq_none (b : Bool) (k : Stop) : chk b k = none ↔ b = false := by cases b <;> simp [chk]

/-- No check is met exactly where every one of the list passes. -/
theorem minStop_eq_none (l : List (Option Stop)) : minStop l = none ↔ ∀ k ∈ l, k = none := by
  induction l with
  | nil => simp [minStop]
  | cons a t ih =>
    cases a with
    | none => simp [minStop, ih]
    | some a => simp only [minStop]; cases minStop t <;> simp; split <;> simp

/-- The check that decides is one of the list. -/
theorem minStop_mem {l : List (Option Stop)} {k : Stop} (h : minStop l = some k) : some k ∈ l := by
  induction l generalizing k with
  | nil => cases h
  | cons a t ih =>
    cases a with
    | none => exact List.mem_cons_of_mem _ (ih h)
    | some a =>
      simp only [minStop] at h
      cases hm : minStop t with
      | none => rw [hm] at h; cases h; exact List.mem_cons_self
      | some b =>
        rw [hm] at h
        simp only at h
        split at h <;> cases h
        · exact List.mem_cons_of_mem _ (ih hm)
        · exact List.mem_cons_self

/-- What a check compares by: stage, class, position. -/
theorem before_iff (a b : Stop) : a.before b = true ↔
    a.stage < b.stage ∨ a.stage = b.stage ∧ (a.cls < b.cls ∨ a.cls = b.cls ∧ a.pos < b.pos) := by
  simp [Stop.before]

/-- None of the list is met before the check that decides. -/
theorem minStop_least {l : List (Option Stop)} {k : Stop} (h : minStop l = some k) {j : Stop} (hj : some j ∈ l) :
    j.before k = false := by
  induction l generalizing k with
  | nil => cases h
  | cons a t ih =>
    cases a with
    | none => exact ih h (by simpa using hj)
    | some a =>
      simp only [minStop] at h
      cases hm : minStop t with
      | none =>
        rw [hm] at h
        cases h
        rcases List.mem_cons.1 hj with e | e
        · cases e; rw [Bool.eq_false_iff, ne_eq, before_iff]; omega
        · exact absurd ((minStop_eq_none t).1 hm _ e) (by simp)
      | some b =>
        rw [hm] at h
        simp only at h
        rcases List.mem_cons.1 hj with e | e
        · cases e
          split at h
          · cases h
            rename_i hb
            rw [before_iff] at hb
            rw [Bool.eq_false_iff, ne_eq, before_iff]; omega
          · cases h; rw [Bool.eq_false_iff, ne_eq, before_iff]; omega
        · have hb := ih hm e
          split at h
          · cases h; exact hb
          · cases h
            rename_i hn
            rw [Bool.eq_false_iff, ne_eq, before_iff] at hb
            rw [before_iff] at hn
            rw [Bool.eq_false_iff, ne_eq, before_iff]; omega

/-- The state in which an issue ends at a check. -/
theorem halt_cases (s : State) (k : Stop) :
    s.halt k = { s with iss := { s.iss with stop := some k } } ∨
    ∃ cause d0 d1, k.kind = .trap cause d0 d1 ∧ s.halt k =
      trapHere { s with iss := { s.iss with stop := some k } } s.iss.c cause d0 d1 false k.pos s.iss.bundle s.iss.slot := by
  unfold State.halt
  cases h : k.kind with
  | freeze => exact .inl rfl
  | noSlot => exact .inl rfl
  | noRoom => exact .inl rfl
  | trap a b c => exact .inr ⟨a, b, c, rfl, rfl⟩

/-- Everything that a move's issue can do: a check ends it, or it takes effect, or its guard is false. -/
theorem issue_cases {s t : State} {g : BitVec 4} {cls own : List (Option Stop)} {eff : State → State}
    (h : issue s g cls own eff = .next t) :
    (∃ k, minStop (cls ++ if s.guardOn g && !s.iss.free then own else []) = some k ∧ t = s.halt k) ∨
    (minStop (cls ++ if s.guardOn g && !s.iss.free then own else []) = none ∧
      ((s.guardOn g = true ∧ t = eff s) ∨ (s.guardOn g = false ∧ t = s))) := by
  unfold issue at h
  split at h
  · cases h; exact .inl ⟨_, ‹_›, rfl⟩
  · cases h
    refine .inr ⟨‹_›, ?_⟩
    cases s.guardOn g <;> simp

/-- A move whose checks pass and whose guard is true takes effect. -/
theorem issue_next {s : State} {g : BitVec 4} {cls own : List (Option Stop)} {eff : State → State}
    (hg : s.guardOn g = true) (hc : ∀ k ∈ cls, k = none) (ho : ∀ k ∈ own, k = none) : issue s g cls own eff = .next (eff s) := by
  have : minStop (cls ++ if s.guardOn g && !s.iss.free then own else []) = none := by
    rw [minStop_eq_none]
    intro k hk
    rcases List.mem_append.1 hk with h | h
    · exact hc k h
    · split at h
      · exact ho k h
      · cases h
  unfold issue
  rw [this]
  simp only [hg, if_true]

/-- A move whose guard is false, and whose checks of R38 pass, has no effect. -/
theorem issue_off {s : State} {g : BitVec 4} {cls own : List (Option Stop)} {eff : State → State}
    (hg : s.guardOn g = false) (hc : ∀ k ∈ cls, k = none) : issue s g cls own eff = .next s := by
  unfold issue
  simp only [hg, Bool.false_and, Bool.false_eq_true, if_false, List.append_nil, (minStop_eq_none _).2 hc]

/-! ## Sources -/

/-- A source that can be read meets no check. -/
theorem srcReady_cls {s : State} {src : BitVec 10} (h : s.srcReady src = true) : ∀ k ∈ s.srcCls src, k = none := by
  simp only [State.srcReady, Ctx.inAlloc, Bool.and_eq_true, Bool.or_eq_true, decide_eq_true_eq, bne_iff_ne, ne_eq] at h
  obtain ⟨⟨⟨⟨h1, h2⟩, h3⟩, h4⟩, -⟩ := h
  intro k hk
  simp only [State.srcCls, List.mem_cons, List.not_mem_nil, or_false] at hk
  rcases hk with rfl | rfl
  · rw [chk_eq_none]
    simp only [h1, Bool.not_true, Bool.false_or, Bool.or_eq_false_iff, Bool.and_eq_false_iff, beq_eq_false_iff_ne]
    constructor
    · rcases h2 with h | h
      · exact .inl h
      · exact .inr (by cases h' : s.iss.l0 <;> simp_all)
    · rcases h3 with h | h
      · exact .inl h
      · exact .inr (by cases h' : s.iss.l1 <;> simp_all)
  · rw [chk_eq_none]
    rcases h4 with (h | h) | h
    · simp; omega
    · simp; omega
    · simp; omega

/-- See `srcReady_cls`. -/
theorem srcReady_own {s : State} {src : BitVec 10} (h : s.srcReady src = true) : ∀ k ∈ s.srcOwn src, k = none := by
  simp only [State.srcReady, Bool.and_eq_true, Bool.or_eq_true, decide_eq_true_eq] at h
  obtain ⟨-, h5⟩ := h
  intro k hk
  unfold State.srcOwn at hk
  simp only at hk
  split at hk
  · rcases h5 with (h | h) | h
    · omega
    · omega
    · simp only [List.mem_cons, List.not_mem_nil, or_false] at hk
      rcases hk with rfl | rfl <;> simp_all
  · cases hk

/-- A trigger whose guard is true, whose source can be read and whose checks pass takes effect after the read. -/
theorem trigger_next {s : State} {g : BitVec 4} {src : BitVec 10} {cls own : List (Option Stop)} {eff : State → State}
    (h : s.mayIssue g src = true) (hc : ∀ k ∈ cls, k = none) (ho : ∀ k ∈ own, k = none) :
    trigger s g src cls own eff = .next (eff (s.afterRead src)) := by
  simp only [State.mayIssue, Bool.and_eq_true] at h
  refine issue_next h.1 ?_ ?_
  · intro k hk
    rcases List.mem_append.1 hk with h' | h'
    · exact srcReady_cls h.2 k h'
    · exact hc k h'
  · intro k hk
    rcases List.mem_append.1 hk with h' | h'
    · exact ho k h'
    · exact srcReady_own h.2 k h'

/-- A trigger with no check of its own. -/
theorem trigger_plain {s : State} {g : BitVec 4} {src : BitVec 10} {eff : State → State} (h : s.mayIssue g src = true) :
    trigger s g src [] [] eff = .next (eff (s.afterRead src)) :=
  trigger_next h (fun _ hk => by cases hk) (fun _ hk => by cases hk)

/-- A destination that can be written meets no check. -/
theorem dstReady_cls {s : State} {src dst : BitVec 10} (h : s.dstReady src dst = true) : ∀ k ∈ s.dstCls src dst, k = none := by
  simp only [State.dstReady, Ctx.inAlloc, Bool.and_eq_true, Bool.or_eq_true, decide_eq_true_eq, Bool.not_eq_true'] at h
  obtain ⟨⟨⟨h1, h2⟩, h3⟩, -⟩ := h
  intro k hk
  simp only [State.dstCls, List.mem_cons, List.not_mem_nil, or_false] at hk
  rcases hk with rfl | rfl
  · rw [chk_eq_none]; simp [h1]
  · rw [chk_eq_none]
    rcases h3 with (h | h) | h <;> simp <;> omega

/-- See `dstReady_cls`. -/
theorem dstReady_own {s : State} {src dst : BitVec 10} (h : s.dstReady src dst = true) : ∀ k ∈ s.dstOwn dst, k = none := by
  simp only [State.dstReady, Bool.and_eq_true, Bool.or_eq_true, decide_eq_true_eq] at h
  obtain ⟨-, h5⟩ := h
  intro k hk
  unfold State.dstOwn at hk
  simp only at hk
  split at hk
  · rcases h5 with (h | h) | h
    · omega
    · omega
    · simp only [List.mem_cons, List.not_mem_nil, or_false] at hk
      rcases hk with rfl | rfl <;> simp_all
  · cases hk

/-! ## What a read leaves -/

/-- A taint changes the launches alone. -/
theorem taintTile_eq (s : State) (c off n : Nat) : ∃ l, s.taintTile c off n = { s with launches := l } := by
  unfold State.taintTile
  split
  · exact ⟨_, rfl⟩
  · exact ⟨s.launches, rfl⟩

/-- See `taintTile_eq`. -/
theorem foldl_taintTile (s : State) (f : Nat → Nat) (n : Nat) (l : List Nat) :
    ∃ ls, l.foldl (fun s r => s.taintTile s.iss.c (f r) n) s = { s with launches := ls } := by
  induction l generalizing s with
  | nil => exact ⟨s.launches, rfl⟩
  | cons a t ih =>
    obtain ⟨l1, h1⟩ := taintTile_eq s s.iss.c (f a) n
    obtain ⟨l2, h2⟩ := ih (s.taintTile s.iss.c (f a) n)
    exact ⟨l2, by rw [List.foldl_cons, h2, h1]⟩

/-- Reading a source leaves everything but the launches' verdicts and the fill streams of the issuing context. -/
theorem afterRead_eq (s : State) (src : BitVec 10) :
    s.afterRead src = s ∨ ∃ ls f, s.afterRead src = { (s.setCx { s.cx with fills := f }) with launches := ls } := by
  unfold State.afterRead
  simp only
  split
  · split
    · rename_i t _
      obtain ⟨ls, h⟩ := foldl_taintTile s (fun r => t.at (s.cx.sbase t) r) 256 (List.range 16)
      rw [h]
      exact .inr ⟨ls, _, rfl⟩
    · exact .inl rfl
  · exact .inl rfl

/-- Away from the fill streams, a read leaves everything. -/
theorem afterRead_plain (s : State) (src : BitVec 10) (h : src.toNat < 0x070 ∨ 0x078 ≤ src.toNat) : s.afterRead src = s := by
  unfold State.afterRead
  simp only
  rw [if_neg (by omega)]

@[simp] theorem afterRead_iss (s : State) (src : BitVec 10) : (s.afterRead src).iss = s.iss := by
  rcases afterRead_eq s src with h | ⟨_, _, h⟩ <;> rw [h]; rfl
@[simp] theorem afterRead_mem (s : State) (src : BitVec 10) : (s.afterRead src).mem = s.mem := by
  rcases afterRead_eq s src with h | ⟨_, _, h⟩ <;> rw [h]; rfl
@[simp] theorem afterRead_cores (s : State) (src : BitVec 10) : (s.afterRead src).cores = s.cores := by
  rcases afterRead_eq s src with h | ⟨_, _, h⟩ <;> rw [h]; rfl
@[simp] theorem afterRead_nextId (s : State) (src : BitVec 10) : (s.afterRead src).nextId = s.nextId := by
  rcases afterRead_eq s src with h | ⟨_, _, h⟩ <;> rw [h]; rfl
@[simp] theorem afterRead_wharfs (s : State) (src : BitVec 10) : (s.afterRead src).wharfs = s.wharfs := by
  rcases afterRead_eq s src with h | ⟨_, _, h⟩ <;> rw [h]; rfl
@[simp] theorem afterRead_keepers (s : State) (src : BitVec 10) : (s.afterRead src).keepers = s.keepers := by
  rcases afterRead_eq s src with h | ⟨_, _, h⟩ <;> rw [h]; rfl
@[simp] theorem afterRead_flits (s : State) (src : BitVec 10) : (s.afterRead src).flits = s.flits := by
  rcases afterRead_eq s src with h | ⟨_, _, h⟩ <;> rw [h]; rfl
@[simp] theorem afterRead_core (s : State) (src : BitVec 10) (k : Nat) : (s.afterRead src).core k = s.core k := by
  simp [State.core]
@[simp] theorem afterRead_ck (s : State) (src : BitVec 10) : (s.afterRead src).ck = s.ck := by
  simp [State.ck, State.core]

/-- The issuing context after a read: only its fill streams differ. -/
theorem afterRead_cx (s : State) (src : BitVec 10) : ∃ f, (s.afterRead src).cx = { s.cx with fills := f } := by
  rcases afterRead_eq s src with h | ⟨_, f, h⟩
  · exact ⟨s.cx.fills, by rw [h]⟩
  · refine ⟨f, ?_⟩
    rw [h]
    show NMap.get Ctx.init (NMap.put s.ctxs s.iss.c _) s.iss.c = _
    rw [NMap.get_put, if_pos rfl]

/-! ## Taking a trap and returning -/

/-- What taking a trap does to the contexts: the trapping one halts at its resume point with its record, its faulted loads pending
again, and the others stay. -/
theorem takeTrap_ctx (s : State) (c : Nat) (e : BitVec 8) (d0 d1 : Word) (l a : Bool) (p : Nat) (b : Word) (n : Nat) (r : Word)
    (q j : Nat) : (takeTrap s c e d0 d1 l a p b n r q).ctx j = if j = c then
      { (s.ctx c).parked with
        stat := .trapped, trec := trapRecord e n p q l a r b (s.ctx c).lclk d0 d1, pc := r, slot := q
        frozenAt := none, frozenSend := none, frz := none } else s.ctx j :=
  State.ctx_setCtx s c _ j

/-- What taking a trap does beside the contexts: the kernel is notified. -/
theorem takeTrap_rest (s : State) (c : Nat) (e : BitVec 8) (d0 d1 : Word) (l a : Bool) (p : Nat) (b : Word) (n : Nat) (r : Word)
    (q : Nat) : ∃ xs, takeTrap s c e d0 d1 l a p b n r q = { s with ctxs := xs, notified := s.notified ++ [c] } := ⟨_, rfl⟩

/-- The issuing context after a trap at its group. -/
theorem trapHere_ctx (s : State) (c : Nat) (e : BitVec 8) (d0 d1 : Word) (l : Bool) (p : Nat) (b : Word) (n j : Nat) :
    (trapHere s c e d0 d1 l p b n).ctx j = if j = c then
      { (s.ctx c).parked with
        stat := .trapped, trec := trapRecord e n p n l false b b (s.ctx c).lclk d0 d1, pc := b, slot := n
        frozenAt := none, frozenSend := none, frz := none } else s.ctx j := takeTrap_ctx ..

/-- A context comes back from a halt: it is ready, its faulted loads are outstanding again, and no freeze of its group stands. -/
theorem returnTo_ctx (s : State) (c j : Nat) : (returnTo s c).ctx j = if j = c ∧ (s.ctx c).stat ∈ [.trapped, .interrupted, .held, .halted] then
      { (s.ctx c).reissued with stat := .ready, frozenAt := none, frozenSend := none, frz := none } else s.ctx j := by
  unfold returnTo
  simp only
  split <;> rename_i h
  all_goals first
    | (have e : (s.ctx c).reissued.stat = (s.ctx c).stat := rfl
       rw [e] at h; rw [h]; show (s.setCtx c _).ctx j = _; rw [State.ctx_setCtx]; simp)
    | (have e : (s.ctx c).reissued.stat = (s.ctx c).stat := rfl
       rw [e] at h
       cases hs : (s.ctx c).stat <;> simp_all)

/-! ## Halting and resuming a context leaves all of it but its berths' replies (R137, R138) -/

theorem parked_eq (x : Ctx) : x.parked = { x with snap := x.parked.snap } := rfl
theorem reissued_eq (x : Ctx) : x.reissued = { x with snap := x.reissued.snap } := rfl
@[simp] theorem parked_stat (x : Ctx) : x.parked.stat = x.stat := rfl
@[simp] theorem reissued_stat (x : Ctx) : x.reissued.stat = x.stat := rfl
@[simp] theorem parked_task (x : Ctx) : x.parked.task = x.task := rfl
@[simp] theorem reissued_task (x : Ctx) : x.reissued.task = x.task := rfl
@[simp] theorem parked_spid (x : Ctx) : x.parked.spid = x.spid := rfl
@[simp] theorem reissued_spid (x : Ctx) : x.reissued.spid = x.spid := rfl
@[simp] theorem parked_lclk (x : Ctx) : x.parked.lclk = x.lclk := rfl
@[simp] theorem reissued_lclk (x : Ctx) : x.reissued.lclk = x.lclk := rfl
@[simp] theorem parked_pc (x : Ctx) : x.parked.pc = x.pc := rfl
@[simp] theorem reissued_pc (x : Ctx) : x.reissued.pc = x.pc := rfl
@[simp] theorem parked_slot (x : Ctx) : x.parked.slot = x.slot := rfl
@[simp] theorem reissued_slot (x : Ctx) : x.reissued.slot = x.slot := rfl
@[simp] theorem parked_x (x : Ctx) : x.parked.x = x.x := rfl
@[simp] theorem reissued_x (x : Ctx) : x.reissued.x = x.x := rfl
@[simp] theorem parked_v (x : Ctx) : x.parked.v = x.v := rfl
@[simp] theorem reissued_v (x : Ctx) : x.reissued.v = x.v := rfl
@[simp] theorem parked_p (x : Ctx) : x.parked.p = x.p := rfl
@[simp] theorem reissued_p (x : Ctx) : x.reissued.p = x.p := rfl
@[simp] theorem parked_m (x : Ctx) : x.parked.m = x.m := rfl
@[simp] theorem reissued_m (x : Ctx) : x.reissued.m = x.m := rfl
@[simp] theorem parked_inlet (x : Ctx) : x.parked.inlet = x.inlet := rfl
@[simp] theorem reissued_inlet (x : Ctx) : x.reissued.inlet = x.inlet := rfl
@[simp] theorem parked_trec (x : Ctx) : x.parked.trec = x.trec := rfl
@[simp] theorem reissued_trec (x : Ctx) : x.reissued.trec = x.trec := rfl
@[simp] theorem parked_win (x : Ctx) : x.parked.win = x.win := rfl
@[simp] theorem reissued_win (x : Ctx) : x.reissued.win = x.win := rfl
@[simp] theorem parked_loadQ (x : Ctx) : x.parked.loadQ = x.loadQ := rfl
@[simp] theorem reissued_loadQ (x : Ctx) : x.reissued.loadQ = x.loadQ := rfl
@[simp] theorem parked_storeQ (x : Ctx) : x.parked.storeQ = x.storeQ := rfl
@[simp] theorem reissued_storeQ (x : Ctx) : x.reissued.storeQ = x.storeQ := rfl
@[simp] theorem parked_fence (x : Ctx) : x.parked.fence = x.fence := rfl
@[simp] theorem reissued_fence (x : Ctx) : x.reissued.fence = x.fence := rfl
@[simp] theorem parked_age (x : Ctx) : x.parked.age = x.age := rfl
@[simp] theorem reissued_age (x : Ctx) : x.reissued.age = x.age := rfl
@[simp] theorem parked_length (x : Ctx) : x.parked.snap.length = x.snap.length := by simp [Ctx.parked]
@[simp] theorem reissued_length (x : Ctx) : x.reissued.snap.length = x.snap.length := by simp [Ctx.reissued]

end Sys2Proof.Machine
end

