-- ==== Sys2Proof/Laws/Units.lean ====
section
/-! SUPPORT. What the triggers of each unit do when they issue: one lemma per shared operation of the units, on the latches of
the issuing context as they stand. -/

namespace Sys2Proof.Machine

/-! ## Latches after a read -/

@[simp] theorem afterRead_opA (s : State) (src : BitVec 10) : (s.afterRead src).cx.opA = s.cx.opA := by
  obtain ⟨f, h⟩ := afterRead_cx s src; rw [h]
@[simp] theorem afterRead_opB (s : State) (src : BitVec 10) : (s.afterRead src).cx.opB = s.cx.opB := by
  obtain ⟨f, h⟩ := afterRead_cx s src; rw [h]
@[simp] theorem afterRead_aS (s : State) (src : BitVec 10) (u : Nat) : (s.afterRead src).cx.aS u = s.cx.aS u := by simp [Ctx.aS]
@[simp] theorem afterRead_bS (s : State) (src : BitVec 10) (u : Nat) : (s.afterRead src).cx.bS u = s.cx.bS u := by simp [Ctx.bS]
@[simp] theorem afterRead_aV (s : State) (src : BitVec 10) (u : Nat) : (s.afterRead src).cx.aV u = s.cx.aV u := by simp [Ctx.aV]
@[simp] theorem afterRead_bV (s : State) (src : BitVec 10) (u : Nat) : (s.afterRead src).cx.bV u = s.cx.bV u := by simp [Ctx.bV]
@[simp] theorem afterRead_m (s : State) (src : BitVec 10) : (s.afterRead src).cx.m = s.cx.m := by
  obtain ⟨f, h⟩ := afterRead_cx s src; rw [h]
@[simp] theorem afterRead_v (s : State) (src : BitVec 10) : (s.afterRead src).cx.v = s.cx.v := by
  obtain ⟨f, h⟩ := afterRead_cx s src; rw [h]
@[simp] theorem afterRead_vbase (s : State) (src : BitVec 10) : (s.afterRead src).cx.vbase = s.cx.vbase := by
  obtain ⟨f, h⟩ := afterRead_cx s src; rw [h]
@[simp] theorem afterRead_win (s : State) (src : BitVec 10) : (s.afterRead src).cx.win = s.cx.win := by
  obtain ⟨f, h⟩ := afterRead_cx s src; rw [h]
@[simp] theorem afterRead_mreg (s : State) (src : BitVec 10) (i : Nat) : (s.afterRead src).cx.mreg i = s.cx.mreg i := by simp [Ctx.mreg]
@[simp] theorem afterRead_third (s : State) (src : BitVec 10) (k : BitVec 3) : (s.afterRead src).cx.third k = s.cx.third k := by
  simp [Ctx.third, Ctx.vreg]
@[simp] theorem afterRead_window (s : State) (src : BitVec 10) (t : Nat) : (s.afterRead src).cx.window t = s.cx.window t := by
  simp [Ctx.window]
@[simp] theorem afterRead_lsAt (s : State) (src : BitVec 10) (w : Word) : (s.afterRead src).cx.lsAt w = s.cx.lsAt w := by simp [Ctx.lsAt]

/-! ## Triggers -/

/-- A trigger of ia fires: both results are on their way. -/
theorem iaTrig_next {s : State} {g : BitVec 4} {src : BitVec 10} {lat : Nat} {f : Word → Word → Word × Word} {u : BitVec 1}
    (h : s.mayIssue g src = true) : iaTrig lat f g src u s =
      .next (s.iaLands src u lat (f (s.cx.aS u.toNat) (s.cx.bS u.toNat)).1 (f (s.cx.aS u.toNat) (s.cx.bS u.toNat)).2) := by
  unfold iaTrig State.iaLands
  rw [trigger_plain h]
  simp only [afterRead_aS, afterRead_bS]

/-- A trigger of sf fires: its result is on its way. -/
theorem sfTrig_next {s : State} {g : BitVec 4} {src : BitVec 10} {f : Word → Word → Word} (h : s.mayIssue g src = true) :
    sfTrig f g src s = .next (s.lands src 4 0x084 (.s (f (s.cx.aS 2) (s.cx.bS 2)))) := by
  unfold sfTrig State.lands State.landS
  rw [trigger_plain h]
  simp only [afterRead_aS, afterRead_bS]

end Sys2Proof.Machine
end

