-- ==== Sys2Proof/Laws/Values.lean ====
section
/-! SUPPORT. What the values of the machine hold: the lanes of a vector, the elements of a lane, the bytes of a number, and the
lanes and numbers that memory holds. -/

namespace Sys2Proof.Machine

/-! ## Lanes -/

theorem get_filterMap_range (f : Nat → Lane) (l : List Nat) (k : Nat) :
    NMap.get 0 (l.filterMap (fun k => if f k = 0 then none else some (k, f k))) k = if k ∈ l then f k else 0 := by
  induction l with
  | nil => simp [NMap.get]
  | cons a t ih =>
    by_cases h : f a = 0
    · simp only [List.filterMap_cons, h, if_true, ih, List.mem_cons]
      by_cases hk : k = a
      · subst hk; simp [h]
      · simp [hk]
    · simp only [List.filterMap_cons, if_neg h, NMap.get, ih, List.mem_cons]
      by_cases hk : k = a
      · subst hk; simp
      · simp [hk]

/-- Lane k of a vector built lane by lane. -/
@[simp] theorem lane_lanesOf (n : Nat) (f : Nat → Lane) (k : Nat) : lane (lanesOf n f) k = if k < n then f k else 0 := by
  unfold lane lanesOf
  rw [get_filterMap_range]
  simp

/-- A vector that lists nothing is zero in every lane. -/
@[simp] theorem lane_nil (k : Nat) : lane [] k = 0 := rfl

/-- A put lane, and every other lane as before. -/
@[simp] theorem lane_put (m : NMap Lane) (n : Nat) (x : Lane) (k : Nat) : lane (NMap.put m n x) k = if k = n then x else lane m k :=
  NMap.get_put ..

/-! ## Elements of a lane -/

/-- A bit field stays below its width. -/
theorem fld_lt {n : Nat} (w : BitVec n) (lo len : Nat) : fld w lo len < 2 ^ len := Nat.mod_lt _ (Nat.two_pow_pos _)
/-- An element stays below its format's width (R41). -/
theorem elem_lt (f : Fmt) (x : Lane) (k : Nat) : elem f x k < 2 ^ width f := fld_lt ..

theorem width_cases (f : Fmt) : width f = 32 ∨ width f = 16 ∨ width f = 8 ∨ width f = 4 := by cases f <;> simp [width]
theorem perLane_eq (f : Fmt) : perLane f * width f = 32 := by
  unfold perLane; rcases width_cases f with h | h | h | h <;> rw [h]

theorem foldl_add (l : List Nat) (a : Nat) : l.foldl (· + ·) a = a + l.foldl (· + ·) 0 := by
  induction l generalizing a with
  | nil => simp
  | cons b t ih => simp only [List.foldl_cons]; rw [ih (a + b), ih (0 + b)]; omega

/-- The digits of a number written digit by digit. -/
theorem digits_sum (w : Nat) (g : Nat → Nat) (n : Nat) :
    let t := ((List.range n).map (fun k => (g k % 2 ^ w) * 2 ^ (w * k))).foldl (· + ·) 0
    t < 2 ^ (w * n) ∧ ∀ k, k < n → t / 2 ^ (w * k) % 2 ^ w = g k % 2 ^ w := by
  induction n with
  | zero => simp
  | succ n ih =>
    obtain ⟨h1, h2⟩ := ih
    simp only [List.range_succ, List.map_append, List.map_cons, List.map_nil, List.foldl_append, List.foldl_cons, List.foldl_nil]
    generalize hT : ((List.range n).map (fun k => (g k % 2 ^ w) * 2 ^ (w * k))).foldl (· + ·) 0 = t at *
    have hg : g n % 2 ^ w < 2 ^ w := Nat.mod_lt _ (Nat.two_pow_pos _)
    refine ⟨?_, ?_⟩
    · rw [Nat.mul_succ, Nat.pow_add]
      have : g n % 2 ^ w * 2 ^ (w * n) ≤ (2 ^ w - 1) * 2 ^ (w * n) := Nat.mul_le_mul_right _ (by omega)
      have e : (2 ^ w - 1) * 2 ^ (w * n) + 2 ^ (w * n) = 2 ^ (w * n) * 2 ^ w := by
        have : 0 < 2 ^ w := Nat.two_pow_pos _
        obtain ⟨m, hm⟩ : ∃ m, 2 ^ w = m + 1 := ⟨2 ^ w - 1, by omega⟩
        rw [hm]; simp only [Nat.add_sub_cancel]; ring
      omega
    · intro k hk
      by_cases hkn : k = n
      · subst hkn
        rw [Nat.add_mul_div_right _ _ (Nat.two_pow_pos _), Nat.div_eq_of_lt h1, Nat.zero_add, Nat.mod_mod]
      · have hlt : k < n := by omega
        rw [← h2 k hlt]
        obtain ⟨d, hd⟩ : ∃ d, n = k + 1 + d := ⟨n - k - 1, by omega⟩
        rw [hd, show w * (k + 1 + d) = w * k + (w + w * d) by ring, Nat.pow_add 2 (w * k), ← Nat.mul_assoc, Nat.mul_right_comm,
          Nat.add_mul_div_right _ _ (Nat.two_pow_pos _), Nat.pow_add 2 w, ← Nat.mul_assoc, Nat.mul_right_comm, Nat.add_mul_mod_self_right]

/-- Element k of a lane built element by element (R41). -/
@[simp] theorem elem_packLane (f : Fmt) (g : Nat → Nat) (k : Nat) (h : k < perLane f) :
    elem f (packLane f g) k = g k % 2 ^ width f := by
  obtain ⟨h1, h2⟩ := digits_sum (width f) g (perLane f)
  unfold elem packLane fld
  rw [show width f * perLane f = 32 by rw [Nat.mul_comm, perLane_eq]] at h1
  rw [BitVec.toNat_ofNat, Nat.shiftRight_eq_div_pow, Nat.mod_eq_of_lt h1, h2 k h]

/-! ## Bytes -/

theorem ofLE_append (x y : List Byte) : ofLE (x ++ y) = ofLE x + 256 ^ x.length * ofLE y := by
  induction x with
  | nil => simp [ofLE]
  | cons a t ih => simp only [List.cons_append, ofLE, ih, List.length_cons, Nat.pow_succ]; ring

theorem ofLE_lt (l : List Byte) : ofLE l < 256 ^ l.length := by
  induction l with
  | nil => simp [ofLE]
  | cons a t ih => simp only [ofLE, List.length_cons, Nat.pow_succ]; have := a.isLt; omega

@[simp] theorem Mem.length_read (m : Mem) (a n : Nat) : (Mem.read m a n).length = n := by simp [Mem.read]

/-- Byte i of the little-endian bytes of a number (R4). -/
theorem leBytes_getElem (n v i : Nat) (h : i < n) : (leBytes n v)[i]'(by simpa using h) = BitVec.ofNat 8 (v / 256 ^ i) := by
  induction n generalizing v i with
  | zero => omega
  | succ n ih =>
    cases i with
    | zero => simp [leBytes]
    | succ i => simp only [leBytes, List.getElem_cons_succ]; rw [ih _ _ (by omega), Nat.pow_succ', Nat.div_div_eq_div_mul]

/-- A read finds the same number where the same bytes stand. -/
theorem Mem.readLE_congr {m m' : Mem} {a b n : Nat} (h : ∀ i, i < n → Mem.get m (a + i) = Mem.get m' (b + i)) :
    Mem.readLE m a n = Mem.readLE m' b n := by
  unfold Mem.readLE Mem.read
  congr 1
  apply List.map_congr_left
  intro i hi
  exact h i (List.mem_range.1 hi)

/-- A read of bytes that stand in a list. -/
theorem Mem.readLE_of {m : Mem} {a : Nat} {l : List Byte} (h : ∀ i (hi : i < l.length), Mem.get m (a + i) = l[i]) :
    Mem.readLE m a l.length = ofLE l := by
  unfold Mem.readLE
  congr 1
  apply List.ext_getElem
  · simp
  · intro i h1 h2; simp [Mem.read, h i h2]

/-- Byte j of the bytes of lanes. -/
theorem bytesOfLanes_get (n : Nat) (m : NMap Lane) : (bytesOfLanes n m).length = 4 * n ∧
    ∀ j (h : j < (bytesOfLanes n m).length), (bytesOfLanes n m)[j] = BitVec.ofNat 8 ((lane m (j / 4)).toNat / 256 ^ (j % 4)) := by
  induction n with
  | zero => simp [bytesOfLanes]
  | succ n ih =>
    obtain ⟨h1, h2⟩ := ih
    have e : bytesOfLanes (n + 1) m = bytesOfLanes n m ++ leBytes 4 (lane m n).toNat := by
      simp [bytesOfLanes, List.range_succ]
    refine ⟨by rw [e]; simp [h1]; omega, ?_⟩
    intro j h
    simp only [e] at h ⊢
    rw [List.getElem_append]
    split
    · rename_i hl; exact h2 j hl
    · rename_i hl
      have hj : j < 4 * n + 4 := by simpa [h1] using h
      rw [leBytes_getElem _ _ _ (by simp [h1]; omega)]
      have : j / 4 = n := by omega
      have : j - (bytesOfLanes n m).length = j % 4 := by rw [h1]; omega
      rw [this, ‹j / 4 = n›]

/-- The lanes of the bytes of lanes are the lanes. -/
theorem laneAt_bytesOfLanes {m : Mem} {a n : Nat} {v : NMap Lane}
    (h : ∀ j, j < 4 * n → Mem.get m (a + j) = BitVec.ofNat 8 ((lane v (j / 4)).toNat / 256 ^ (j % 4))) (k : Nat) (hk : k < n) :
    laneAt m (a + 4 * k) = lane v k := by
  unfold laneAt
  have : Mem.readLE m (a + 4 * k) 4 = (lane v k).toNat := by
    have := Mem.readLE_of (m := m) (a := a + 4 * k) (l := leBytes 4 (lane v k).toNat) (by
      intro i hi
      simp only [leBytes_length] at hi
      rw [Nat.add_assoc, h _ (by omega), leBytes_getElem _ _ _ hi]
      congr 3 <;> [skip; skip] <;> first | omega | (congr 1; omega))
    rw [leBytes_length] at this
    rw [this, ofLE_leBytes]
    exact Nat.mod_eq_of_lt (by have := (lane v k).isLt; omega)
  rw [this]
  exact BitVec.ofNat_toNat ..

end Sys2Proof.Machine
end

