-- ==== Sys2Proof/Laws/Wharf.lean ====
section
/-! SUPPORT. What the operations that only make something wait leave of the state: an access held for a stack, a fired
operation, an answer on its way, a report word (R198, R209, R357). -/

namespace Sys2Proof.Machine

/-- Holding an access for a stack changes only what the stacks hold (R357). -/
theorem holdAt_cases (s : State) (n : Nat) (i : Held) : s.holdAt n i = s ∨ s.holdAt n i =
    { s with srHeld := NMap.put s.srHeld n (NMap.get [] s.srHeld n ++ [i]) } := by
  unfold State.holdAt
  dsimp only
  split
  · exact .inl rfl
  · exact .inr rfl
@[simp] theorem holdAt_mem (s : State) (n : Nat) (i : Held) : (s.holdAt n i).mem = s.mem := by
  rcases holdAt_cases s n i with h | h <;> rw [h]
@[simp] theorem holdAt_ctxs (s : State) (n : Nat) (i : Held) : (s.holdAt n i).ctxs = s.ctxs := by
  rcases holdAt_cases s n i with h | h <;> rw [h]
@[simp] theorem holdAt_cores (s : State) (n : Nat) (i : Held) : (s.holdAt n i).cores = s.cores := by
  rcases holdAt_cases s n i with h | h <;> rw [h]
@[simp] theorem holdAt_wharfs (s : State) (n : Nat) (i : Held) : (s.holdAt n i).wharfs = s.wharfs := by
  rcases holdAt_cases s n i with h | h <;> rw [h]
@[simp] theorem holdAt_launches (s : State) (n : Nat) (i : Held) : (s.holdAt n i).launches = s.launches := by
  rcases holdAt_cases s n i with h | h <;> rw [h]

@[simp] theorem keepFired_mem (s : State) (d : Nat) (a : Armed) : (s.keepFired d a).mem = s.mem := rfl
@[simp] theorem keepFired_ctxs (s : State) (d : Nat) (a : Armed) : (s.keepFired d a).ctxs = s.ctxs := rfl
@[simp] theorem keepFired_cores (s : State) (d : Nat) (a : Armed) : (s.keepFired d a).cores = s.cores := rfl

@[simp] theorem report_mem (s : State) (d : Nat) (r : BitVec 256) (n k : Nat) : (report s d r n k).mem = s.mem := rfl
@[simp] theorem report_ctxs (s : State) (d : Nat) (r : BitVec 256) (n k : Nat) : (report s d r n k).ctxs = s.ctxs := rfl
@[simp] theorem report_cores (s : State) (d : Nat) (r : BitVec 256) (n k : Nat) : (report s d r n k).cores = s.cores := rfl

/-- An answer only joins the replies of its Wharf (R198); a fired operation has none. -/
theorem answer_eq (s : State) (d : Nat) (op : WOp) (a : Answer) : answer s d op a =
    if op.port = 0 then s else s.setWharf d { s.wharf d with replies := (s.wharf d).replies ++ [(op.c, op.fid, a)] } := rfl
@[simp] theorem answer_mem (s : State) (d : Nat) (op : WOp) (a : Answer) : (answer s d op a).mem = s.mem := by
  rw [answer_eq]; split <;> rfl
@[simp] theorem answer_ctxs (s : State) (d : Nat) (op : WOp) (a : Answer) : (answer s d op a).ctxs = s.ctxs := by
  rw [answer_eq]; split <;> rfl
@[simp] theorem answer_cores (s : State) (d : Nat) (op : WOp) (a : Answer) : (answer s d op a).cores = s.cores := by
  rw [answer_eq]; split <;> rfl

@[simp] theorem putVar_mem (s : State) (d o : Nat) (w : Word) : (s.putVar d o w).mem = s.mem := rfl
@[simp] theorem putVar_ctxs (s : State) (d o : Nat) (w : Word) : (s.putVar d o w).ctxs = s.ctxs := rfl
@[simp] theorem putVar_cores (s : State) (d o : Nat) (w : Word) : (s.putVar d o w).cores = s.cores := rfl

end Sys2Proof.Machine
end

