-- ==== Sys2Proof/Tests/Slice0.lean ====
section
/-! SUPPORT. The model's own tests: words from the spec's encoding tables, the checks of WellFormed, single results worked by
hand from the spec's rules, and for every statement a state and operands that meet its hypotheses, at the edges of their ranges. -/

set_option Elab.async false

namespace Sys2Proof.Tests

open Sys2Proof Sys2Proof.Machine

/-! ## Helpers -/

/-- A number put together from fields: place and value. -/
def fields (l : List (Nat × Nat)) : Nat := l.foldl (fun a e => a + e.2 * 2 ^ e.1) 0
/-- See `fields`. -/
def word (l : List (Nat × Nat)) : Word := BitVec.ofNat 64 (fields l)

/-- A next state. -/
def ok (o : Host.Outcome State Fault Refusal) : Bool := match o with | .next _ => true | _ => false
/-- The cause of the trap that context 0 has taken, 0 for none. -/
def trapOf (o : Host.Outcome State Fault Refusal) : Nat :=
  match o with | .next t => if (t.ctx 0).stat = .trapped then fld (NMap.get 0 (t.ctx 0).trec 0) 0 8 else 0 | _ => 0
/-- What the last item of the snapshot buffer of context 0 brings, and when. -/
def flown (o : Host.Outcome State Fault Refusal) : List (Nat × Item) :=
  match o with | .next t => (t.ctx 0).snap.map (fun f => (f.due.toNat, f.item)) | _ => []

/-- The vector that the first item in flight brings, and when. -/
def vq (o : Host.Outcome State Fault Refusal) : Nat × VVal :=
  match flown o with | (d, .result _ (.v q)) :: _ => (d, q) | _ => (0, VVal.zero)

/-- A launch of one device, with one running task. -/
def launch : Launch :=
  { id := 1, info := BitVec.ofNat 1024 (fields [(0, 7), (64, 2), (112, 2), (256, 1), (272, 1)]), spid := 5, image := [], sections := [],
    tasks := [0], inputs := [], windows := [], ckpts := [], lives := [], phases := [], groups := [], regions := [], args := [],
    classes := [], routes := [], deps := [], tstat := [(0, .running 0)], hart := some 0, stage := 2, released := true, deptag := 0,
    phase := 0, phaseOn := false, variant := 0, nphase := 1, phaseStart := 0, lastRet := [], verdict := 0, ncorr := 0, fault := none,
    closedSeq := [], closedAq := [], depOut := [], gone := [], stmt := 0 }

/-- Context 0 with a task, every vector register, plane and bay, and tile registers t1 and t2 of 64 KiB each. -/
def ctx : Ctx :=
  { Ctx.init with
    stat := .ready, task := some ⟨1, 0⟩, spid := 5, lclk := 100, pc := 0x3020, budget := 1000, vcount := 32
    planes := 0xFFFFFFFF, bays := 0xFFFF, win := [(1, ⟨0, 65536⟩), (2, ⟨65536, 65536⟩)], ttag := [(1, .fp32)] }

/-- The device with that context, at the issue of a group of bundle 0x3000. -/
def st : State :=
  { State.reset with
    ctxs := [(0, ctx)], launches := [launch], bootStep := 9
    iss := { Iss.init with gid := 9, bundle := 0x3000, after := 0x3020 } }

/-- The device with other values in context 0. -/
def stx (x : Ctx) : State := { st with ctxs := [(0, x)] }
/-- The device with words in the latches .a and .b of a unit. -/
def stab (u : Nat) (a b : Word) : State := stx { ctx with opA := [(u, .s a)], opB := [(u, .s b)] }
/-- A vector value with one tag and the same code in every lane of row 0. -/
def vec (f : Fmt) (n : Nat) : VVal := ⟨lanesOf 64 (fun _ => BitVec.ofNat 32 n), f, false⟩
/-- The device with vectors in the latches .a and .b of a unit. -/
def stv (u : Nat) (a b : VVal) : State := stx { ctx with opA := [(u, .v a)], opB := [(u, .v b)] }

/-! ## WellFormed: each check refuses a term -/

theorem test_wf_source : WellFormed (.move 0 0x07C 1) = false ∧ WellFormed (.iaAdd 0 0x1FF 0) = false := by decide
theorem test_wf_dest : WellFormed (.move 0 1 0x060) = false ∧ WellFormed (.move 0 1 0x09E) = false := by decide
theorem test_wf_nop : WellFormed (.move 0 0 0) = false ∧ WellFormed (.move 1 0 0) = true := by decide
theorem test_wf_loop : WellFormed (.ctlLoop 0 0 3) = false ∧ WellFormed (.ctlLoop 0 0 2) = true := by decide
theorem test_wf_loopend : WellFormed (.ctlLoopend 0 0 3) = false ∧ WellFormed (.ctlLoopend 0 0 0) = true := by decide
theorem test_wf_fence : WellFormed (.ctlFence 0 0 11) = false ∧ WellFormed (.ctlFence 0 0 10) = true := by decide

/-! ## Decoding: words of the spec's own programs (05: bundles 0x3000 to 0x3040; 02: R25) and encoding tables -/

theorem test_decode_move : decodeSlot 0x09009C#24 = .ok (.move 0 0x240 0x09C) ∧ decodeSlot 0x031886#24 = .ok (.move 0 0x0C6 0x086) := by
  decide +kernel
theorem test_decode_nop : decodeSlot 0#24 = .ok .nop := by decide +kernel
theorem test_decode_ctl : decodeSlot 0x000370#24 = .ok (.ctlRetag 0 0) ∧ decodeSlot 0x000364#24 = .ok (.ctlEnd 0 0) := by decide +kernel
theorem test_decode_va : decodeSlot 0x0001F0#24 = .ok (.va0Fma 0 0 0) ∧ decodeSlot 0x000222#24 = .ok (.va1Fmul 0 0) := by decide +kernel
theorem test_decode_red : decodeSlot 0x0002B0#24 = .ok (.redCsumPs 0 0 0) := by decide +kernel
theorem test_decode_ia : decodeSlot 0x000100#24 = .ok (.iaAdd 0 0 0) ∧ decodeSlot 0x000140#24 = .ok (.iaAdd 0 0 1) := by decide +kernel
theorem test_decode_sf : decodeSlot 0x0001A5#24 = .ok (.sfCvth 0 0 5) := by decide +kernel
theorem test_decode_sfn : decodeSlot 0x00028B#24 = .ok (.sfnRcpS 0 0) := by decide +kernel
theorem test_decode_xch : decodeSlot 0x0002A8#24 = .ok (.xchPermc 0 0 0) := by decide +kernel
theorem test_decode_ls : decodeSlot 0x0002D0#24 = .ok (.lsBerth 0 0) ∧ decodeSlot 0x0002C3#24 = .ok (.lsLd64 0 0) := by decide +kernel
theorem test_decode_mx : decodeSlot 0x0002F2#24 = .ok (.mxAcc 0 0) := by decide +kernel
theorem test_decode_syn : decodeSlot 0x000327#24 = .ok (.synCas 0 0 7) := by decide +kernel
theorem test_decode_eng : decodeSlot 0x00034A#24 = .ok (.engTcvt 0 0 2) := by decide +kernel
theorem test_encode : encode (.va0Fma 0 0 3) = some 0x0001F3#24 ∧ encode (.move 15 0x3FF 0x040) = some 0xFFFC40#24 := by decide +kernel

/-! ## Witnesses: encoding and one step -/

/-- The decoder refuses a word. -/
noncomputable def refuses (w : Nat) : Bool := (decodeTableWord 24 w).isNone
theorem witness_DecodeWords : [0x01F001, 0x01FC01, 0x021401, 0x027401, 0x02FC01, 0x032001, 0x07FC01, 0x000060, 0x000074, 0x000077,
    0x00007C, 0x00007F, 0x00008B, 0x00008F, 0x00009E, 0x0000FF, 0x0003A0, 0x0003FF].all refuses = true := by
  decide +kernel
theorem witness_DecodeEncode : ∀ i ∈ [Instr.move 15 0x3FF 0x09D, .nop, .ctlFence 0 0 10, .ctlLoop 0 0 2, .engAq 15 0x0C7],
    WellFormed i = true ∧ (fieldsOf i).isSome = true := by decide
theorem witness_EncodeDecode : decodeSlot 0xFFFF90#24 = .ok (.ctlQuiesce 15 0x3FF) := by decide +kernel
theorem witness_StepRunsEvent : st.powered = true ∧ (({ st with inbox := [.patrolScrub] } : State)).inbox = [.patrolScrub] ∧
    ({ st with powered := false, inbox := [.powerOnReset] } : State).powered = false := by decide
/-- The device of which the next step issues one slot (nop; va0.fadd by a program that has set its guard). -/
def fetch (w : Nat) : State := State.reset.withFetchWord 24 w
theorem witness_StepRunsGroup : (fetch 0x000100).issues 0 [⟨0, 0x000100, none, none⟩] 32 0 = true ∧
    (let l := [(⟨0, 0x000100, none, none⟩ : GMove)]
     let s := (landAll (fetch 0x000100) 0).frame 0 l 32 0
     (runMoves runSlot (written runSlot l s).cx (moveOrder l) s []).2 = [] ∧ ∀ k ∈ asWritten runSlot l s, k = none) := by decide +kernel
theorem witness_StepRunsDecoded : (fetch 0).issues 0 [⟨0, 0, none, none⟩] 32 0 = true ∧ decodeSlot 0 = .ok .nop ∧
    (((landAll (fetch 0) 0).frame 0 [⟨0, 0, none, none⟩] 32 0).atMove 0 ⟨0, 0, none, none⟩ false).iss.stop = none := by
  decide +kernel
theorem witness_GroupTrapTakesNothing : (match issueGroup runSlot st 0 [⟨0x3000, 0x00007F, none, none⟩] 0x3020 0 with
    | (.trapped, t) => (t.ctx 0).stat = .trapped | _ => false) = true := by decide +kernel
theorem witness_ClosingAGroup : (st.ctx 0).stat = .ready ∧ st.iss.binds = [] ∧ st.iss.waited = [] := by decide +kernel
theorem witness_StepKeepsMemories : State.reset.memOK = true ∧ ok (step State.reset) = true := by decide +kernel

/-! ## Witnesses: moves -/

theorem witness_ShortImmediate : 0x200 ≤ (0x200#10).toNat ∧ 0x200 ≤ (0x3FF#10).toNat ∧ st.readSrc 0x200 = .s 0 ∧
    st.readSrc 0x2FF = .s 255 ∧ st.readSrc 0x300 = .s 0xFFFFFFFFFFFFFF00 ∧ st.readSrc 0x3FF = .s 0xFFFFFFFFFFFFFFFF := by decide +kernel
theorem witness_SourceValues :
    let s := stx { ctx with x := [(1, 7), (63, 8)], p := 0x02, m := [(7, 1)], ps := [(3, ⟨[(0, 5)], .fp32⟩)], lc := [(0, 3), (2, 4)], pb := 90 }
    s.readSrc 0 = .s 0 ∧ s.readSrc 0x001 = .s 7 ∧ s.readSrc 0x03F = .s 8 ∧ s.readSrc 0x05F = .v VVal.zero ∧ s.readSrc 0x060 = .s 1 ∧
    s.readSrc 0x061 = .s 1 ∧ s.readSrc 0x067 = .s 0 ∧ (match s.readSrc 0x06F with | .v q => q.tag == .mask && !q.unt | _ => false) = true ∧
    s.readSrc 0x07B = .p [(0, 5)] .fp32 ∧ s.readSrc 0x0C0 = .s 100 ∧ s.readSrc 0x0C1 = .s 10 ∧ s.readSrc 0x0C2 = .s 3 ∧
    s.readSrc 0x0C4 = .s 4 := by decide +kernel
/-- The first and the last result port, and ls.q after a scalar load and after a vector load. -/
theorem witness_SourceValues_ports :
    (stx { ctx with resQ := [(0, .s 7), (14, .s 9)] }).cx.port 0x080 = .s 7 ∧ (stx { ctx with resQ := [(14, .s 9)] }).cx.port 0x09C = .s 9 ∧
    (stx { ctx with resQ := [(8, .s 5)] }).cx.port 0x090 = .s 5 ∧
    (stx { ctx with resQ := [(8, .v (vec .fp16 5))] }).cx.port 0x090 = .v (vec .fp16 5) := by decide +kernel
/-- A move of each kind of source to each kind of destination, at the ends of their ranges, may issue. -/
theorem witness_MoveWrites_ready : [(0x001, 0x03F), (0x05F, 0x040), (0x3FF, 0x05F), (0x078, 0x040), (0x060, 0x061), (0x200, 0x067),
    (0x001, 0x068), (0x068, 0x06F), (0x201, 0x078), (0x07B, 0x07B), (0x0C0, 0x080), (0x098, 0x09D), (0x040, 0x086), (0x05F, 0x087),
    (0x001, 0x086), (0x001, 0x089), (0x001, 0x091), (0x040, 0x091), (0x068, 0x091), (0x001, 0x09D), (0x078, 0x068), (0x07B, 0x06F),
    (0x078, 0x086), (0x07B, 0x087), (0x078, 0x091)].all
    (fun p => st.mayIssue 0 (BitVec.ofNat 10 p.1) && st.dstReady (BitVec.ofNat 10 p.1) (BitVec.ofNat 10 p.2)) = true := by decide +kernel
theorem witness_MoveWrites : ok (exec (.move 0 0x3FF 0x03F) st) = true ∧ st.readSrc 0x3FF = .s 0xFFFFFFFFFFFFFFFF ∧
    st.readSrc 0x040 = .v VVal.zero ∧ st.readSrc 0x078 = .p [] .raw ∧ dstWd 0x080 = some .s ∧ dstWd 0x081 = some .s ∧
    dstWd 0x086 = some .v ∧ dstWd 0x087 = some .v := by decide +kernel
theorem witness_MoveFrame : ok (exec (.move 0 1 0x06F) st) = true ∧ ok (exec (.move 0 1 0x074) st) = true := by decide +kernel
theorem witness_FalseGuardNoEffect : fieldsOf (.iaAdd 1 0 0) = some (1, 0, 0x100) ∧ st.guardOn 1 = false ∧
    ok (exec (.iaAdd 1 0 0) st) = true := by decide +kernel
/-- A KB tag in ls.q stops a move to a vector register and to a latch (R40), and a tag that is none does not. -/
theorem test_move_kb : ∀ d ∈ [0x041#10, 0x086], trapOf (exec (.move 0 0x090 d) (stx { ctx with resQ := [(8, .v (vec .kb9 5))] })) = 0x03 ∧
    (stx { ctx with resQ := [(8, .v (vec .kb9 5))] }).dstReady 0x090 d = false ∧
    (stx { ctx with resQ := [(8, .v (vec .fp16 5))] }).dstReady 0x090 d = true := by decide +kernel
theorem test_move_x0 : (match exec (.move 0 0x3FF 0) st with | .next t => t.cx.x == [] | _ => false) = true := by decide +kernel
theorem test_move_no_alloc : trapOf (exec (.move 0 0x040 0x041) (stx { ctx with vcount := 1 })) = 0x09 := by decide +kernel

/-! ## Witnesses and tests: integer and scalar units -/

theorem witness_IntegerArithmetic : st.mayIssue 0 0 = true ∧ st.mayIssue 0 0x3FF = true := by decide +kernel
theorem witness_IntegerLogic : st.mayIssue 0 0x05F = true ∧ st.mayIssue 0 0x0C5 = true := by decide +kernel
theorem test_add_carry : flown (exec (.iaAdd 0 0 1) (stab 1 0xFFFFFFFFFFFFFFFF 2)) =
    [(101, .result 0x082 (.s 1)), (101, .result 0x083 (.s 1))] := by decide +kernel
theorem test_subsat : flown (exec (.iaSubsat 0 0 0) (stab 0 0x8000000000000000 1)) =
    [(101, .result 0x080 (.s 0x8000000000000000)), (101, .result 0x081 (.s 1))] := by decide +kernel
theorem test_mulsu : flown (exec (.iaMulsu 0 0 0) (stab 0 0xFFFFFFFFFFFFFFFF 0xFFFFFFFFFFFFFFFF)) =
    [(103, .result 0x080 (.s 1)), (103, .result 0x081 (.s 0xFFFFFFFFFFFFFFFF))] := by decide +kernel
theorem test_clz : flown (exec (.iaClz 0 0 0) (stab 0 0 0)) = [(101, .result 0x080 (.s 64)), (101, .result 0x081 (.s 0))] := by decide +kernel
theorem test_bfxs : flown (exec (.iaBfxs 0 0 0) (stab 0 0x00F0 0x0404)) =
    [(101, .result 0x080 (.s 0xFFFFFFFFFFFFFFFF)), (101, .result 0x081 (.s 0))] := by decide +kernel
theorem test_sra : flown (exec (.iaSra 0 0 0) (stab 0 0x8000000000000000 0x7F)) =
    [(101, .result 0x080 (.s 0xFFFFFFFFFFFFFFFF)), (101, .result 0x081 (.s 0))] := by decide +kernel
theorem witness_ScalarFloat : st.mayIssue 0 0 = true := by decide +kernel
/-- The value 65520 of R61 to FP16, and saturating. -/
theorem test_cvth : flown (exec (.sfCvth 0 0 0) (stab 2 0x477FF000 0)) = [(104, .result 0x084 (.s 0x7C00))] ∧
    flown (exec (.sfCvth 0 0 4) (stab 2 0x477FF000 0)) = [(104, .result 0x084 (.s 0x7BFF))] := by decide +kernel
theorem test_cvtw_nan : flown (exec (.sfCvtw 0 0 4) (stab 2 0x7FC00000 0)) = [(104, .result 0x084 (.s 0))] := by decide +kernel
theorem test_fmin_zero : flown (exec (.sfFmin 0 0) (stab 2 0x80000000 0)) = [(104, .result 0x084 (.s 0x80000000))] := by decide +kernel
theorem test_fadd : flown (exec (.sfFadd 0 0) (stab 2 0x4B800000 0x3F800000)) = [(104, .result 0x084 (.s 0x4B800000))] := by decide +kernel
theorem witness_NaNIsCanonical : clsF .fp32 = true ∧ clsF .bf16 = true ∧ clsF .fp16 = true ∧ (decF .fp16 0xFC01).isNan = true ∧
    (decF .fp32 0x7F800001).isNan = true ∧ (decF .bf16 0x7FC0).isNan = true := by decide +kernel

/-! ## Witnesses and tests: vector, special-function, exchange and reduction units -/

/-- Vectors of every class in both units, tagged and untagged. -/
def vset : List (Fmt × Fmt) := [(.fp32, .fp32), (.bf16, .bf16), (.fp16, .fp16), (.int32, .int32), (.uint8, .uint8), (.bin8, .bin8), (.raw, .raw)]
theorem witness_VectorElements : ∀ v ∈ [0, 1],
    (∀ f ∈ [Fmt.fp32, .bf16, .fp16], (stv (3 + v) (vec f 1) (vec f 2)).vaReady 0 0 v clsF .fp32 true = true ∧
      (stv (3 + v) (vec f 1) (vec .raw 2)).vaReady 0 0 v clsF .fp32 false = true) ∧
    ∀ f ∈ [Fmt.int32, .int16, .int8, .uint8], (stv (3 + v) (vec f 1) (vec f 2)).vaReady 0 0 v clsI .int32 true = true ∧
      (stv (3 + v) (vec f 1) (vec .raw 2)).vaReady 0 0 v clsI .int32 false = true := by decide +kernel
theorem witness_VectorCompare : ∀ v ∈ [0, 1], (stv (3 + v) (vec .fp16 1) (vec .fp16 2)).vaReady 0 0 v clsF .fp32 true = true ∧
    (stv (3 + v) (vec .bin8 1) (vec .bin8 2)).vaReady 0 0 v clsC .int32 true = true ∧
    (stv (3 + v) (vec .mask 1) (vec .mask 1)).vaReady 0 0 v clsA .raw true = true ∧
    (stv (3 + v) (vec .bf16 1) (vec .bf16 2)).vaReady 0 0 v clsH .fp16 true = true ∧
    (stv (3 + v) (vec .uint8 1) (vec .uint8 2)).vaReady 0 0 v clsB .int8 true = true := by decide +kernel
/-- A state whose third register v7 has the operating format, and one whose .b holds a conversion word for FP16, part 1. -/
theorem witness_VectorFusedAndConvert : ∀ v ∈ [0, 1],
    (let s := stx { ctx with opA := [(3 + v, .v (vec .fp32 1))], opB := [(3 + v, .v (vec .fp32 2))], v := [(7, vec .fp32 3)] }
     s.vaReady 0 0 v clsF .fp32 true = true ∧ (7#3).toNat < s.cx.vcount ∧ (s.cx.vreg (s.cx.vbase + (7#3).toNat)).tag = .fp32) ∧
    (let s := stx { ctx with opA := [(3 + v, .v (vec .int32 1))], opB := [(3 + v, .v (vec .int32 2))], v := [(0, vec .int32 3)] }
     s.vaReady 0 0 v clsI .int32 true = true ∧ (s.cx.vreg 0).tag = .int32) ∧
    (let s := stx { ctx with opA := [(3 + v, .v (vec .fp32 1))], opB := [(3 + v, .v (bcast 0x103 true))] }
     let w := (lane (s.cx.bV (3 + v)).lanes 0).toNat
     s.mayIssue 0 0 = true ∧ s.cx.busy v = false ∧ (s.cx.bV (3 + v)).unt = true ∧ cvtFmt .fp32 = true ∧
     Fmt.ofCodeRaw (w % 32) = .fp16 ∧ cvtFmt .fp16 = true ∧ w / 2 ^ 11 = 0 ∧ w / 2 ^ 5 % 8 = 0 ∧
     w / 2 ^ 8 % 8 < max (perLane .fp32) (perLane .fp16) / min (perLane .fp32) (perLane .fp16)) := by decide +kernel
theorem test_va_add_wraps : let q := vq (exec (.va0Add 0 0) (stv 3 (vec .uint8 0xFF01FFFF) (vec .uint8 0x02010100)))
    q.1 = 106 ∧ lane q.2.lanes 5 = 0x010200FF ∧ q.2.tag = .uint8 := by decide +kernel
theorem test_va_mismatch : trapOf (exec (.va1Fadd 0 0) (stv 4 (vec .fp32 0) (vec .bf16 0))) = 0x03 := by decide +kernel
theorem test_va_busy : trapOf (exec (.va0Fmul 0 0) (stx { ctx with vaBusy := [(0, 2)] })) = 0x03 ∧
    trapOf (exec (.va0Fmul 0 0) (stx { ctx with vaBusy := [(0, 2)], opA := [(3, .v (vec .fp32 0))], opB := [(3, .v (vec .fp32 0))] })) = 0x04 := by
  decide +kernel
theorem witness_SpecialFunctions : ∀ f ∈ [Fmt.fp32, .bf16, .fp16], st.mayIssue 0 0 = true ∧ clsF f = true := by decide +kernel
theorem witness_SpecialValues : decF .fp32 0xFF800000 = .inf true ∧ decF .bf16 0x7F80 = .inf false ∧ decF .fp16 0x8000 = .fin true 0 (-24) ∧
    decF .fp16 0x7E00 = .nan ∧ decF .fp16 0xBC00 = .fin true 1024 (-10) ∧ sfnElem .exp2 false .fp16 0x4C00 = 0x7C00 ∧
    decF .fp16 0x7C00 = .inf false ∧ sfnElem .rcp false .fp16 0x4C00 = 0x2C00 := by decide +kernel
/-- Finite inputs that R97 does not list, whose FP32 results are finite, and one beyond the format. -/
theorem witness_SpecialFunctions_finite :
    [(Sf.exp2, 0x3F000000), (.exp, 0x3F800000), (.log2, 0x40400000), (.ln, 0x41200000), (.rcp, 0x40400000), (.rsqrt, 0x40000000),
      (.sqrt, 0x40000000), (.tanh, 0x3F000000), (.logistic, 0x3F800000)].all (fun p =>
      match decF .fp32 p.2 with
      | .fin neg m e => (p.1.special (.fin neg m e)).isNone && encF .fp32 0 (p.1.real neg m e) % 2 ^ 31 != 0x7F800000 &&
          (match p.1.real neg m e with | .fin _ _ _ => true | _ => false)
      | _ => false) = true ∧
    1 ≤ Sf.exp2.bound ∧ 1 ≤ Sf.tanh.bound ∧ encF .fp32 0 (Sf.rcp.real false 1 (-140)) % 2 ^ 31 = 0x7F800000 := by decide +kernel
/-- The FP16 results of the table after R98. -/
theorem test_sfn_table : sfnElem .exp2 true .fp16 0x4C00 = 0x7BFF ∧ sfnElem .rcp true .fp16 0x8000 = 0xFBFF ∧
    sfnElem .exp2 false .fp16 0xCC00 = 0x0100 ∧ sfnElem .rcp false .fp16 0xCC00 = 0xAC00 := by decide +kernel
theorem witness_Exchange : st.mayIssue 0 0 = true ∧ (7#3).toNat < st.cx.vcount ∧ st.cx.vbase + (7#3).toNat < 32 ∧
    (slotDest 0x00029A#24).toNat = 0x29A ∧ (slotDest 0x00029F#24).toNat = 0x29F := by decide +kernel
theorem test_rotr : vq (exec (.xchRotr 0 0) (stx { ctx with opA := [(6, .v ⟨[(0, 5)], .fp32, false⟩)], opB := [(6, .s 63)] })) =
    (104, ⟨[(63, 5)], .fp32, false⟩) := by decide +kernel
theorem test_tr16 : vq (exec (.xchTr16 0 0) (stx { ctx with opA := [(6, .v ⟨[(18, 5)], .raw, false⟩)] })) =
    (104, ⟨[(144, 5)], .raw, false⟩) := by decide +kernel
theorem witness_Reduction : ∀ f ∈ [Fmt.fp32, .bf16, .fp16, .int32, .int16, .int8, .uint8], st.mayIssue 0 0 = true ∧ redFmt f = true ∧
    redIn ⟨[], f, false⟩ = f ∧ redIn ⟨[], .raw, true⟩ = .fp32 := by decide +kernel
/-- The example after R92: the tree and the fold differ. -/
theorem test_scan_and_tree :
    let leaf (n : Nat) : Nat := if n = 0 then 0x4B800000 else if n = 2 ∨ n = 3 then 0x3F800000 else 0
    treeFold (redOp false .fp32) 6 ((List.range 64).map leaf) = 0x4B800001 ∧ scanTo (redOp false .fp32) leaf 63 = 0x4B800000 := by decide +kernel

/-! ## Witnesses and tests: tile SRAM, berths and streams -/

/-- The device with `a` and `b` in ls.a and ls.b and a pending command that holds the last 4,096 bytes of t1. -/
def lsHeld (a b : Nat) : State :=
  let s := stab 8 (BitVec.ofNat 64 a) (BitVec.ofNat 64 b)
  s.setCk { s.ck with cmds := [{ s.newCmd 0x340 0 0 with gid := 4, ranges := [(61440, 4096)] }] }
/-- Last offset of t1 for each size; the base of t2; a must-be-zero bit, the first offset outside, a misaligned offset and an
offset that is held. -/
theorem witness_TileAccess :
    [(1, 1), (2, 2), (4, 4), (8, 8), (4096, 64)].all (fun p =>
      let s (a : Nat) := stab 8 (BitVec.ofNat 64 a) 5
      (s (65536 * 1 + 65536 - p.1)).lsReady p.1 p.2 && (s (65536 * 2)).lsReady p.1 p.2 && (s 0).mayIssue 0 0 &&
      !(s 0).iss.free && !(s 0).cx.lsBV && !(s (65536 * 1 + 65537 - p.1)).cx.inTile 1 (65537 - p.1) p.1 &&
      (p.2 == 1 || 61 % p.2 != 0) && !(lsHeld (65536 * 1 + 65536 - p.1) 0).unheld (65536 - p.1) p.1) = true ∧
    (NMap.get (.s 0) (stab 8 0 5).cx.opB 8 matches .s 5) = true ∧ ((stab 8 0x10000 0).cx.ttagOf 1).isKB = false ∧
    ((stx { ctx with ttag := [(1, .kb9)] }).cx.ttagOf 1).isKB = true := by decide +kernel
/-- ls.b holds a V value. -/
theorem witness_TileAccess_vector : (stv 8 (vec .raw 0) (vec .raw 0)).mayIssue 0 0 = true ∧ (stv 8 (vec .raw 0) (vec .raw 0)).cx.lsBV = true := by
  decide +kernel
/-- A KB tag of the register stops ls.vld, and ls.vst not (R40). -/
theorem test_ls_kb : let s := stx { ctx with opA := [(8, .s 0x10000)], ttag := [(1, .kb9)] }
    trapOf (exec (.lsVld 0 0) s) = 0x03 ∧ trapOf (exec (.lsVst 0 0) s) = 0 := by decide +kernel
theorem test_ls_causes : trapOf (exec (.lsLd64 0 0) (stab 8 0x400000 0)) = 0x01 ∧
    trapOf (exec (.lsSt64 0 0) (stab 8 0x1FFFC 0)) = 0x09 ∧ trapOf (exec (.lsLd16s 0 0) (stab 8 0x10001 0)) = 0x0C ∧
    trapOf (exec (.lsSt8 0 0) (stv 8 (vec .raw 0) (vec .raw 0))) = 0x01 := by decide +kernel
theorem witness_TileMemory : (1 : Nat) ∈ [1, 2, 4, 8] ∧ (8 : Nat) ∈ [1, 2, 4, 8] := by decide
theorem test_ls_store_load :
    ((landItem (landItem st 0 ⟨1, 0, .lsStore 65534 2 0xFEDC⟩) 0 ⟨2, 0, .lsLoad 65535 1 true⟩).ctx 0).port 0x090 =
      .s 0xFFFFFFFFFFFFFFFE := by decide +kernel
/-- Control words with OFFSET 1 and 4095, SIZE 0 to 4, the first and last registers of each kind, scopes 0 and 10, FMT 12. -/
theorem witness_BerthLoad :
    [(1, 0, 0, 1, 0, 0xFFFF), (4095, 3, 0, 0x3F, 10, 8), (9, 2, 0, 1, 9, 4), (9, 1, 0, 2, 1, 2), (1, 4, 12, 0x40, 0, 64),
      (4095, 4, 0, 0x5F, 10, 4096)].all (fun (o, z, f, r, sc, a) =>
      (stab 8 a (word [(0, o), (12, z), (15, 1), (16, f), (21, r), (28, sc), (32, 1)])).berthReady a
        (word [(0, o), (12, z), (15, 1), (16, f), (21, r), (28, sc), (32, 1)])) = true ∧
    (NMap.get (.s 0) (stab 8 0 5).cx.opB 8 matches .s 5) = true := by decide +kernel
theorem test_berth_lands : ((landItem st 0 ⟨1, 0, .berth 0 (word [(0, 1), (12, 1), (15, 1), (21, 63)]) (.data [0xFE, 0xFF]) false⟩).ctx 0).xreg 63 =
    0xFFFFFFFFFFFFFFFE := by decide +kernel
theorem test_berth_scope : trapOf (exec (.lsBerth 0 0) (stab 8 0 (word [(0, 1), (21, 1), (28, 5), (32, 1)]))) = 0x01 ∧
    trapOf (exec (.lsBerth 0 0) (stab 8 0 (word [(0, 1), (12, 4), (16, 13), (21, 0x40)]))) = 0x03 := by decide +kernel

/-- A descriptor over t1: rows 256 bytes apart from `base`, E0 rows, and the device that has it at offset `off`. -/
def desc (fmt base e0 : Nat) : BitVec 256 := BitVec.ofNat 256 (fields [(0, 1), (16, fmt), (48, base), (64, e0), (80, 1), (96, 1), (112, 1), (128, 256)])
/-- See `desc`. -/
def sd (off fmt base e0 : Nat) : State :=
  let s := stab 9 (BitVec.ofNat 64 off) 0
  { s with iss := { s.iss with tile0 := Mem.writeLE [] off 32 (desc fmt base e0).toNat } }
/-- Descriptors at the first and last place of the windows; one walk of one row that ends with its window; formats 1 and 11. -/
theorem witness_Streams : [(0, 1, 65280, 1), (131040, 11, 0, 32)].all (fun (off, f, b, e) =>
      let s := sd off f b e
      let d : BitVec 256 := BitVec.ofNat 256 (Mem.readLE s.iss.tile0 off 32)
      let t : Stream := ⟨d, 0⟩
      s.mayIssue 0 0 && s.cx.inWindow off 32 && off % 32 == 0 && s.unheld off 32 && s.cx.window (fld d 0 6) == some ⟨0, 65536⟩ &&
      fld d 48 16 % 64 == 0 && (List.range 4).all (fun i => fld d (128 + 32 * i) 32 % 64 == 0 && decide (1 ≤ t.ext i)) &&
      (List.range (t.ext 0 * t.ext 1 * t.ext 2 * t.ext 3)).all (fun j => decide (0 ≤ t.row j) && decide (t.row j + 256 ≤ 65536)) &&
      fld d 16 5 == f && ok (exec (.strBindf 0 0 7) s) && ok (exec (.strBindd 0 0 3) s)) = true ∧
    (let t : Stream := ⟨desc 1 0 32, 1⟩
     let s := stx { ctx with fills := [(0, t), (7, t)], drains := [(0, t), (3, t)] }
     s.cx.window (fld t.desc 0 6) = some ⟨0, 65536⟩ ∧ s.cx.fill (0x070 - 0x070) = some t ∧ s.cx.fill (0x077 - 0x070) = some t ∧
     s.cx.drain (0x070 - 0x070) = some t ∧ s.cx.drain (0x073 - 0x070) = some t ∧
     (List.range 16).all (fun r => (List.range 16).all (fun q =>
       let e (r : Nat) : Nat := ((0 : Int) + t.row (16 * t.pos + r)).toNat
       decide (q ≤ r) || decide (e r + 256 ≤ e q))) = true) := by decide +kernel
theorem test_stream_causes : trapOf (exec (.strBindf 0 0 0) (sd 0 0 0 1)) = 0x03 ∧ trapOf (exec (.strBindf 0 0 0) (sd 0 13 0 1)) = 0x03 ∧
    trapOf (exec (.strBindd 0 0 0) (sd 0 1 65280 2)) = 0x0D ∧ trapOf (exec (.strBindf 0 0 0) (sd 4 1 0 1)) = 0x0C := by decide +kernel

/-! ## Witnesses and tests: the matrix array -/

theorem witness_MatrixOperands :
    [fields [(0, 0x7FFFE0), (24, 3)], 0].all (fun n => let w : Word := BitVec.ofNat 64 n
      fld w 26 38 == 0 && !bit w 23 && fld w 0 23 % 32 == 0) = true ∧
    ((stv 10 (vec .int8 1) (vec .raw 0)).cx.aV 10).tag = .int8 ∧ ((stv 10 (vec .mask 1) (vec .raw 0)).cx.aV 10).tag = .mask ∧
    ((stab 10 0 0).cx.aV 10).unt = true ∧ st.mayIssue 0 0 = true := by decide +kernel
theorem test_push_tag : trapOf (exec (.mxPush 0 0) (stv 10 (vec .fp32 1) (vec .raw 0))) = 0x03 ∧
    trapOf (exec (.mxRmask 0 0) (stv 10 (vec .int8 1) (vec .raw 0))) = 0x03 ∧
    trapOf (exec (.mxHpset 0 0) (stab 10 0 16)) = 0x0C := by decide +kernel
/-- A context at the last row of bay 15 and one at the first row of bay 0, planes 31 and 0 with tag FP32, one metadata entry. -/
def sb (w : Nat) (f : Fmt) : State :=
  let s := stx { ctx with hp := [(3, BitVec.ofNat 23 (0x600000 - 256))], opB := [(10, .s (BitVec.ofNat 64 w))], opA := [(10, .v (vec f 0x3C003C00))],
                          abUnt := true, mdq := [5] }
  s.setCk { s.ck with bayTag := [(0, f), (15, f)], htags := [(4, 7)], planes := [(0, ⟨[], .fp32, false⟩), (31, ⟨[], .fp32, false⟩)] }
theorem witness_MatrixBeats : [(fields [(0, 31), (5, 3), (7, 7)], Fmt.fp16), (fields [(0, 0), (5, 0)], .kb9), (fields [(0, 31), (5, 0), (9, 1)], .e2m1)].all
    (fun (w, f) =>
      let s := sb w f
      let a := s.cx.aV 10
      s.mayIssue 0 0 && s.beatReady s.cx (s.cx.bS 10) false && s.beatReady s.cx (s.cx.bS 10) true &&
      (f == .kb9 || s.beatReady { s.cx with abuf := a.lanes, abTag := a.tag, abUnt := a.unt } (s.cx.bS 10) false)) = true ∧
    ((stab 10 0 0).cx.aV 10).unt = true := by decide +kernel
/-- One beat of ones on ones at depth 2: every cell takes 2, and with ZERO clear adds its prior 2. -/
theorem test_beat :
    let row : List Byte := [0, 0x3C, 0, 0x3C]
    let a0 : NMap Lane := [(63, 0x3C003C00)]
    let t := landItem st 0 ⟨1, 0, .beat 0x2F2 (word [(9, 1)]) (BitVec.twoPow 64 63) 1 a0 [] .fp16 row .fp16 0 false⟩
    let u := landItem t 0 ⟨1, 0, .beat 0x2F2 0 (BitVec.twoPow 64 63) 1 a0 [] .fp16 row .fp16 0 false⟩
    lane ((t.core 0).plane 0).cells 4032 = 0x40000000 ∧ lane ((u.core 0).plane 0).cells 4032 = 0x40800000 ∧
      lane ((u.core 0).plane 0).cells 4033 = 0 := by decide +kernel
theorem test_beat_freezes : (match exec (.mxSacc 0 0) ({ sb 0 .fp16 with ctxs := [(0, { (sb 0 .fp16).ctx 0 with mdq := [] })] }) with
    | .next t => t.iss.stop.map (fun p => p.kind) | _ => none) = some .freeze := by decide +kernel
theorem witness_MatrixDrain :
    (∀ w ∈ [fields [(0, 31), (5, 63), (11, 1)], fields [(0, 0), (5, 15), (11, 5), (16, 7)]],
      let s := sb w .fp16
      let b := s.cx.bS 10
      fld b 19 45 = 0 ∧ s.cx.planes.getLsbD (fld b 0 5) = true ∧ 1 ≤ fld b 11 5 ∧ fld b 11 5 ≤ 5 ∧
      (s.ck.plane (fld b 0 5)).tag = .fp32 ∧ s.cx.copyHeld.getLsbD (fld b 0 5) = false) ∧
    (stx { ctx with resQ := [(10, .v (vec .fp16 9))] } |>.ctx 0).port 0x094 = .v (vec .fp16 9) ∧
    (∀ w ∈ [fields [(0, 31), (8, 2), (36, 768), (46, 16383)], fields [(0, 0), (8, 1), (46, 1)]],
      let s := sb w .fp16
      let b := s.cx.bS 10
      fld b 14 22 = 0 ∧ fld b 5 3 = 0 ∧ s.cx.inTile (fld b 8 6) (64 * fld b 36 10) 16384 = true ∧ s.cmdReady (8 * fld b 46 18) = true) ∧
    (∀ w ∈ [fields [(0, 2), (6, 63), (36, 1023 - 126), (46, 16383)], fields [(0, 1), (6, 1)]],
      let s := sb w .fp16
      let b := s.cx.bS 10
      fld b 13 23 = 0 ∧ 1 ≤ fld b 6 7 ∧ fld b 6 7 ≤ 64 ∧ s.cx.inTile (fld b 0 6) (64 * fld b 36 10) (128 * fld b 6 7) = true ∧
      s.cx.mdq.length + s.cx.mdqPromised + fld b 6 7 ≤ 64 ∧ s.cmdReady (8 * fld b 46 18) = true) := by decide +kernel

/-! ## Witnesses and tests: the Weir array -/

/-- A context with a Weir store of one format, at the last row of bay 15; sectors of that row carry region 6, others none. -/
def sw (w : Nat) (thf : Fmt) (a : VVal) (tag : Nat) : State :=
  let s := stx { ctx with
                      thf := thf, ten := BitVec.allOnes 64, chain := 1, rtags := [(3, 7)], ttag := [(1, .int32)],
                      hp := [(3, BitVec.ofNat 23 (0x600000 - 1024))], opA := [(11, .v a)], opB := [(11, .s (BitVec.ofNat 64 w))] }
  let t := s.setCk { s.ck with bayTag := [(0, thf), (15, thf)], htags := [(98303, tag)] }
  { t with iss := { t.iss with hp0 := (t.ctx 0).hp } }
theorem witness_WeirBeats :
    (sw 0 .bf16 (vec .mask 1) 0).mayIssue 0 0 = true ∧ ((sw 0 .bf16 (vec .mask 1) 0).cx.aV 11).tag = .mask ∧
    [fields [(0, 2), (32, 0xFFFFFFFF)], fields [(0, 11), (5, 1)]].all (fun n => let w : Word := BitVec.ofNat 64 n
      fld w 6 26 == 0 && [0x02, 0x0B].contains (fld w 0 5)) = true ∧
    [(fields [(0, 63), (6, 1), (7, 3)], Fmt.bf16, 7), (fields [(0, 63), (7, 3)], .bf16, 0), (0, .bin8, 0)].all (fun (n, f, id) =>
      let s := sw n f (vec f 1) id
      let w := s.cx.bS 11
      let h := (NMap.get 0 s.iss.hp0 (fld w 7 2)).toNat
      fld w 9 55 == 0 && decide (h < 0x600000) && s.cx.bays.getLsbD (h / 0x60000) && decide (h + 1024 ≤ 0x60000 * (h / 0x60000 + 1)) &&
      s.cx.thf != .raw && !s.ck.baySet s.iss.gid (h / 0x60000) && s.ck.bayFmt (h / 0x60000) == s.cx.thf &&
      (List.range 16).all (fun k => [0, id].contains (NMap.get 0 s.ck.htags (h / 64 + k))) &&
      (id == 0 || NMap.get 0 s.ck.htags ((h + 1023) / 64) == id) && s.ck.bayFmt 15 == s.cx.thf && (s.cx.aV 11).tag == s.cx.thf &&
      fld (BitVec.ofNat 64 0xFF : Word) 8 56 == 0) = true ∧
    (∃ e ∈ (sw 0 .bf16 (vec .bf16 1) 0).cx.rtags, e.2 = 6 + 1) ∧
    ((stx { ctx with resQ := [(11, .v (vec .int32 9))] }).ctx 0).port 0x096 = .v (vec .int32 9) := by decide +kernel
/-- One record at cell (5, 2), BF16, threshold 1.0 of feature 0, with bit 3 of its mask: a smaller feature leaves leaf 0, an
equal or greater one leaf 3; the columns of a chained pair without a record leave leaf 0 and 0xFE. -/
def leafOf (x : Nat) : List Nat :=
  let s := sw 0 .bf16 (vec .bf16 x) 0
  let u := s.setCx { s.cx with recs := [(64 * 5 + 2, BitVec.ofNat 128 (fields [(0, 8), (64, 0x3F80), (89, 1)]))] }
  [0, 1, 2].map (fun j => exitLeaf u.cx (sliceOf (vec .bf16 x).lanes 0) j)
theorem test_weir_leaf : leafOf 0x3F7F = [0, 254, 0] ∧ leafOf 0x3F80 = [0, 254, 3] ∧ leafOf 0x7FC0 = [0, 254, 3] := by decide +kernel
theorem test_weir_tags : trapOf (exec (.wrLoad 0 0) ((sw (7 + 3 * 128) .bf16 (vec .bf16 1) 7).setCk
    { (sw 7 .bf16 (vec .bf16 1) 7).ck with htags := [(98303, 7), (98302, 6)] })) = 0x09 ∧
    trapOf (exec (.wrBeat 0 0) (sw 0 .bin8 (vec .uint8 1) 0)) = 0x03 := by decide +kernel
/-- Indices 127 in every lane, the last entry of the last slot at the end of t1, and an index that reads nothing. -/
theorem witness_WeirLeaf : [(fields [(8, 1), (20, 1), (21, 512)], 127), (fields [(4, 15), (8, 2)], 63), (fields [(8, 1), (21, 1023)], 128)].all
    (fun (n, e) =>
      let s := sw n .bf16 (vec .int32 e) 0
      let w := s.cx.bS 11
      let idx := sliceOf (s.cx.aV 11).lanes (fld w 0 4)
      let size := if bit w 20 then 128 else 64
      s.mayIssue 0 0 && (s.cx.aV 11).tag == .int32 && fld w 31 33 == 0 && fld w 14 6 == 0 && (s.cx.window (fld w 8 6)).isSome &&
      (List.range 64).all (fun j => decide (128 ≤ (lane idx j).toNat) ||
        (s.cx.inTile (fld w 8 6) (64 * fld w 21 10 + 4 * (size * j + (lane idx j).toNat)) 4 &&
          s.unheld (s.cx.tileAt (fld w 8 6) (64 * fld w 21 10 + 4 * (size * j + (lane idx j).toNat))) 4)) &&
      (fld w 8 6 != 1 || s.cx.ttagOf (fld w 8 6) == .int32)) = true ∧
    (sw 0 .bf16 (vec .int32 0) 0).cx.ttagOf 1 = .int32 ∧
    ((stx { ctx with resQ2 := [(11, .v (vec .fp32 9))] }).ctx 0).port 0x097 = .v (vec .fp32 9) := by decide +kernel

/-! ## Witnesses and tests: synchronisation -/

/-- An address word of die 0, plain. -/
def wadr (off : Nat) : Nat := fields [(0, off)]
/-- The device with syn.a, syn.b and a record of 32 bytes at the last place of the windows. -/
def ss (a b r : Nat) : State :=
  let s := stab 12 (BitVec.ofNat 64 a) (BitVec.ofNat 64 b)
  { s with iss := { s.iss with tile0 := Mem.writeLE [] 131040 32 r } }
/-- An operation of context 0 on the variable at 4096, which holds 5. -/
def wop (port : Nat) (b : Word) : WOp :=
  { id := 4, c := 0, fid := 3, port := port, addr := 4096, b := b, e := 5, age := 0, cmd := none, info := 0, task := ⟨1, 0⟩, spid := 5 }
/-- The first and last word of the launch's window, with an order and a scope, and the last barrier. -/
theorem witness_WharfOperations :
    (ss (wadr 4096) 0 0).synReady 8 = true ∧ (ss (fields [(0, 8184), (34, 3), (36, 10)]) 0 0).synReady 8 = true ∧
    (ss (fields [(0, 8160), (36, 5)]) 0 0).synReady 32 = true ∧ (ss (wadr 4096) 0 0).mayIssue 0 0 = true ∧
    fld (BitVec.ofNat 64 (2 ^ 48 - 1) : Word) 48 16 = 0 ∧ fld (BitVec.ofNat 64 511 : Word) 9 55 = 0 ∧
    fld (BitVec.ofNat 64 (fields [(0, 511), (32, 2 ^ 32 - 1)]) : Word) 9 23 = 0 ∧
    ((ss (wadr 4096) 0 0).wharf 0).reorder.length < 1024 ∧
    (let s := ss (wadr 4096) 131040 (fields [(8, 9), (12, 8184), (128, 4096)])
     let r : BitVec 256 := BitVec.ofNat 256 (Mem.readLE s.iss.tile0 131040 32)
     s.synReady 8 = true ∧ fld (s.cx.bS 12) 21 43 = 0 ∧ s.cx.inWindow (fld (s.cx.bS 12) 0 21) 32 = true ∧
     131040 % 32 = 0 ∧ s.unheld 131040 32 = true ∧ s.armOk (s.cx.aS 12) r = true) ∧
    (let s := ss (wadr 8184) (fields [(46, 16383)]) (fields [(0, 3), (12, 4096)])
     s.cmdReady (8 * fld (s.cx.bS 12) 46 18) = true ∧
     s.armOk (s.cx.aS 12) (BitVec.ofNat 256 (Mem.readLE s.iss.tile0 131040 32)) = true) := by decide +kernel
/-- A Wharf whose reorder buffer is full. -/
theorem witness_WharfOperations_full :
    let s := (ss (wadr 4096) 0 0).setWharf 0 { st.wharf 0 with reorder := List.replicate 1024 (4096, wop 0x313 0) }
    s.mayIssue 0 0 = true ∧ s.synReady 8 = true ∧ fld (s.cx.bS 12) 48 16 = 0 ∧ s.iss.free = false ∧
    1024 ≤ (s.wharf (fld (s.cx.aS 12) 26 2)).reorder.length := by decide +kernel
theorem test_syn_causes : trapOf (exec (.synLd 0 0) (ss 4088 0 0)) = 0x09 ∧ trapOf (exec (.synArrive 0 0) (ss 4104 0 0)) = 0x0C ∧
    trapOf (exec (.synAdd 0 0) (ss (fields [(0, 4096), (34, 1), (36, 5)]) 0 0)) = 0x01 ∧
    trapOf (exec (.synArm 0 0) (ss 4096 131040 (fields [(8, 1), (12, 4096), (128, 4096)]))) = 0x01 := by decide +kernel
/-- A launch with device 1 at port 0 of die 0; core 0 holds a grant for what core 0 of any device sends to it. -/
def sm (a b : Nat) : State :=
  let s := ss a b 0
  let t := { s with launches := [{ launch with routes := [(1, 8)] }] }
  t.setCk { t.ck with grants := [⟨1, BitVec.ofNat 256 (fields [(32, 0xFFFF), (48, 1)])⟩] }
theorem witness_Messages : [fields [(0, 0)], fields [(11, 3), (32, 1), (51, 10), (55, 1)]].all (fun a =>
      let s := sm a (fields [(32, 1), (44, 1)])
      let w := s.cx.aS 12
      let l : Launch := { launch with routes := [(1, 8)] }
      let port := s.path l (dieOf s.iss.c) (fld w 32 16)
      s.mayIssue 0 0 && (s.launchOf s.cx.launchId).isSome && routeOk w && decide (fld w 32 16 < l.ndev) &&
      (fld w 32 16 == l.rank || (s.core (ctxOfPos (fld w 0 13) / 4)).grants.any (fun q =>
        grantMsg q l.id (fld w 0 11) l.rank (fld (ctxPos s.iss.c) 0 11))) &&
      decide ((s.flits.filter (fun f => f.port == port && f.core == s.iss.c / 4)).length < l.mslots) &&
      port == (if fld w 32 16 = 0 then 24 else 0) &&
      fld (s.cx.bS 12) 50 14 == 0 && fld (s.cx.bS 12) 44 6 == 1 && fld (s.cx.bS 12) 32 12 == 1 && decide (s.cx.claims < 64)) = true ∧
    (sm 0 0).launchOf (sm 0 0).cx.launchId = some { launch with routes := [(1, 8)] } := by
  refine ⟨by decide +kernel, rfl⟩
/-- The one port to device 1 is dead, and every port of the route is left. -/
theorem witness_Messages_dead :
    let s := { sm (fields [(32, 1)]) 0 with deadPorts := [0] }
    let l : Launch := { launch with routes := [(1, 8)] }
    s.path l (dieOf s.iss.c) 1 = 99 ∧ routeOk (s.cx.aS 12) = true ∧ fld (s.cx.aS 12) 32 16 = 1 ∧
    (s.core (ctxOfPos 0 / 4)).grants.any (fun q => grantMsg q l.id 0 l.rank 0) = true ∧ s.skid 0 < 4096 := by decide +kernel
theorem test_send_causes : trapOf (exec (.synSend 0 0) (sm (fields [(32, 2)]) 0)) = 0x09 ∧
    trapOf (exec (.synSend 0 0) (sm (fields [(0, 16), (32, 1)]) 0)) = 0x01 ∧
    trapOf (exec (.synSend 0 0) (ss (fields [(32, 1)]) 0 0)) = 0x0A ∧
    trapOf (exec (.synRecv 0 0) (sm 0 (fields [(44, 1)]))) = 0x01 := by decide +kernel

/-! ## Witnesses and tests: the transfer engine -/

/-- The device with eng.a and eng.b, and tile SRAM as the group sees it at step 3. -/
def se (a b : Nat) (tile : Mem) : State :=
  let s := stab 13 (BitVec.ofNat 64 a) (BitVec.ofNat 64 b)
  { s with iss := { s.iss with tile0 := tile } }
/-- Commands of one sector and of 1,024 sectors, at the ends of t2, with the first and the last completion word. -/
theorem witness_EngineTransfers :
    [fields [(0, 2), (16, 12), (21, 10), (25, 1), (46, 16383)], fields [(0, 2), (21, 5), (26, 1), (36, 1023), (46, 0)]].all (fun b =>
      let s := se (2 ^ 64 - 64) b []
      let w := s.cx.bS 13
      let n := if fld w 26 10 = 0 then 1024 else fld w 26 10
      s.mayIssue 0 0 && fld w 6 10 == 0 && decide (fld w 21 4 ≤ 10) && (fld w 21 4 != 5 || !bit w 25) &&
      s.cx.inTile (fld w 0 6) (64 * fld w 36 10) (64 * n) && (s.cx.aS 13).toNat % 64 == 0 && s.cmdReady (8 * fld w 46 18) &&
      decide (fld w 16 5 ≤ 12)) = true ∧
    [fields [(0, 15), (16, 15), (23, 0), (33, 5120), (46, 1)], fields [(0, 0), (23, 1), (33, 6143), (46, 1)]].all (fun b =>
      let s := se 64 b []
      let w := s.cx.bS 13
      fld w 21 2 == 0 && fld w 4 12 == 0 && s.cx.bays.getLsbD (fld w 0 4) && decide (fld w 16 5 < 16) &&
      decide (fld w 33 13 + (if fld w 23 10 = 0 then 1024 else fld w 23 10) ≤ 6144) && s.cmdReady (8 * fld w 46 18)) = true ∧
    (let s := se (fields [(0, 2097088), (32, 11), (48, 1)]) (fields [(0, 1), (16, 12), (26, 1), (46, 1)]) []
     let a := s.cx.aS 13
     let w := s.cx.bS 13
     fld a 48 16 < launch.ndev ∧ fld a 43 5 = 0 ∧ fld a 21 11 = 0 ∧ fld w 21 5 = 0 ∧ fld w 6 10 = 0 ∧ posFits (fld a 32 11) = true ∧
     s.cx.inTile (fld w 0 6) (64 * fld w 36 10) 64 = true ∧ fld a 0 21 % 64 = 0 ∧ s.cmdReady (8 * fld w 46 18) = true) ∧
    (∀ off ∈ [0, 131064], (se off 0 []).cx.inWindow off 8 = true ∧ off % 8 = 0 ∧ (se off 0 []).ck.cmds = []) ∧
    (se 0 0 []).launchOf (se 0 0 []).cx.launchId = some launch := by
  refine ⟨by decide +kernel, by decide +kernel, by decide +kernel, by decide +kernel, rfl⟩
theorem test_eng_causes : trapOf (exec (.engTld 0 0) (se 32 (fields [(0, 1), (26, 1)]) [])) = 0x0C ∧
    trapOf (exec (.engTld 0 0) (se 0 (fields [(0, 1), (16, 13), (26, 1)]) [])) = 0x03 ∧
    trapOf (exec (.engHld 0 0) (se 0 (fields [(23, 2), (33, 6143)]) [])) = 0x09 ∧
    trapOf (exec (.engWait 0 0) (se 4 0 [])) = 0x0C := by decide +kernel
theorem test_wait_value : flown (exec (.engWait 0 0) (se 8 0 [(8, 1), (15, 0x80)])) = [(101, .result 0x09A (.s 0x8000000000000001))] := by
  decide +kernel

/-- A record of a near-memory command and the device that has it at the start of t1. -/
def sn (l : List (Nat × Nat)) : State := se 0 (fields [(46, 16383)]) (Mem.writeLE [] 0 64 (fields l))
/-- The conditions of NearMemoryCommands on a record of one kind. -/
def nmFits (port : Nat) (s : State) : Bool :=
  let r : BitVec 1024 := BitVec.ofNat 1024 (Mem.readLE s.iss.tile0 0 64)
  let k := nmKind port
  let u := nmUsed k r
  fld r 224 32 == 0 && fld r 96 32 == 0 && fld r 64 4 == 0 && fld r 0 44 == 0 && decide (1 ≤ nmCount r) &&
  [0, 1, 2, 3].all (fun i => u.contains i || (nmFmt r i == 0 && nmAddr r i == 0)) &&
  (k == .fill || k == .copy || fld r 68 2 == 0) && (k == .red || nmOp r == 0) && (k == .fuse || k == .sadd || nmMod r == 0) &&
  (k == .fuse || nmC r 2 == 0) && (k == .fuse || k == .fill || nmC r 1 == 0) && ((k != .red && k != .copy) || nmC r 0 == 0) &&
  u.all (fun i => (if k = .fill ∨ k = .copy then [0] else if k = .red ∧ i ≠ 1 then [1] else [1, 2, 3]).contains (nmFmt r i) &&
    decide (nmBytes k r i ≤ 2 ^ 20) && nmAddr r i % (if k = .red ∧ i = 0 then 8 else 64) == 0 &&
    u.all (fun j => decide (j ≤ i) || decide (nmAddr r i + nmBytes k r i ≤ nmAddr r j) || decide (nmAddr r j + nmBytes k r j ≤ nmAddr r i) ||
      (k == .sadd && i == 0 && j == 2 && nmAddr r 0 == nmAddr r 2 && nmFmt r 0 == nmFmt r 2)))
/-- One record of each kind, with streams that touch and with the greatest and the least count. -/
theorem witness_NearMemoryCommands :
    nmFits 0x358 (sn [(44, 1), (49, 2), (54, 3), (59, 1), (75, 1), (128, 5), (160, 6), (192, 7), (256, 64), (320, 128), (384, 192), (448, 0)]) = true ∧
    nmFits 0x359 (sn [(44, 1), (49, 2), (54, 1), (72, 7), (75, 262144), (256, 2 ^ 20), (320, 0), (384, 2 ^ 20)]) = true ∧
    nmFits 0x35A (sn [(44, 1), (49, 3), (70, 2), (75, 524288), (256, 8), (320, 64)]) = true ∧
    nmFits 0x35B (sn [(68, 3), (75, 131072), (128, 1), (160, 2), (256, 64)]) = true ∧
    nmFits 0x35C (sn [(75, 64), (256, 64), (320, 0)]) = true ∧
    (let s := sn []
     s.mayIssue 0 0 = true ∧ fld (s.cx.bS 13) 0 46 = 0 ∧ s.cx.inWindow 0 64 = true ∧ s.unheld 0 64 = true ∧
     s.cmdReady (8 * fld (s.cx.bS 13) 46 18) = true ∧ ok (exec (.engNmCopy 0 0) (sn [(75, 64), (256, 64), (320, 0)])) = true) := by
  decide +kernel
theorem test_nm_causes : trapOf (exec (.engNmFill 0 0) (sn [(44, 1), (75, 1)])) = 0x01 ∧ trapOf (exec (.engNmFill 0 0) (sn [(75, 1), (256, 8)])) = 0x0C ∧
    trapOf (exec (.engNmFill 0 0) (sn [])) = 0x01 ∧ trapOf (exec (.engNmCopy 0 0) (sn [(75, 65), (256, 64)])) = 0x01 := by decide +kernel

/-- A conversion of one row at the largest count of FP32 that fits, and a context whose t2 holds KB9. -/
theorem witness_RecordCommands_tcvt : [(fields [(0, 1), (8, 2), (16, 13), (32, 1024)], 8, Fmt.fp32), (fields [(0, 2), (8, 1), (16, 1), (32, 1)], 131064, .kb9)].all
    (fun (an, bn, f) =>
      let s := { stab 13 (BitVec.ofNat 64 an) (BitVec.ofNat 64 bn) with ctxs := [(0, { (stab 13 (BitVec.ofNat 64 an) (BitVec.ofNat 64 bn)).ctx 0 with
                                                                                  ttag := [(1, .fp32), (2, .kb9)] })] }
      let a := s.cx.aS 13
      let b := s.cx.bS 13
      let tf := Fmt.ofCodeRaw (fld a 16 5)
      let n := fld a 32 16
      s.mayIssue 0 0 && s.cx.ttagOf (fld a 0 6) == f && (s.cx.window (fld a 0 6)).isSome && (s.cx.window (fld a 8 6)).isSome &&
      fld a 6 2 == 0 && fld a 14 2 == 0 && fld a 21 11 == 0 && fld a 48 16 == 0 && fld b 21 43 == 0 && decide (1 ≤ n) &&
      ((f.isKB && [Fmt.fp32, .bf16, .fp16].contains tf) || ([Fmt.fp32, .bf16, .fp16].contains f && tf.isKB)) &&
      decide (cvtBytes f n ≤ 65536) && decide (cvtBytes tf n ≤ 65536) && b.toNat % 8 == 0 && s.cmdReady b.toNat &&
      ok (exec (.engTcvt 0 0 4) s)) = true := by decide +kernel
/-- A batch of 2,048 CAS records that fills t2, and of one store at its end. -/
theorem witness_RecordCommands_batch : [fields [(0, 2), (20, 10), (24, 2048), (46, 1)], fields [(0, 2), (24, 1), (36, 1023), (46, 16383)]].all
    (fun an =>
      let s := ss an 0 0
      let a := s.cx.aS 12
      let n := fld a 24 12
      s.mayIssue 0 0 && fld a 6 14 == 0 && decide (1 ≤ n) && fld a 20 4 != 1 && decide (fld a 20 4 ≤ 10) &&
      s.cx.inTile (fld a 0 6) (64 * fld a 36 10) (n * (if fld a 20 4 = 10 then 32 else 16)) && s.cmdReady (8 * fld a 46 18) &&
      ok (exec (.synBatch 0 0) s)) = true := by decide +kernel
/-- A descriptor of a reduction of two ranks (the context is rank 0 of core 0, device 0) at the last place of the windows. -/
def sc : State :=
  State.giveSlot (spid := 5) (master := 0) <| ss 131040 0 (fields [(0, 0), (8, 1), (32, 1), (128, 3), (160, 1), (166, 0), (176, 1), (182, 1), (192, 1), (202, 0), (222, 1), (228, 16), (238, 1)])
theorem witness_RecordCommands_coll :
    let d : BitVec 256 := BitVec.ofNat 256 (Mem.readLE sc.iss.tile0 131040 32)
    let e : BitVec 1024 := d.setWidth 1024
    let n := fld d 192 10 + 1
    let rt := sc.cx.tileAt (fld d 222 6) (64 * fld d 228 10)
    let k : Cmd := { sc.newCmd 0x338 131040 0 with
      info := e, cw := 8 * fld d 238 18
      ranges := [(131040, 32), (rt, 4 * n), (sc.cx.tileAt (fld d 160 6) (64 * fld d 166 10), descSrc e),
        (sc.cx.tileAt (fld d 176 6) (64 * fld d 182 10), descDst e)] }
    sc.mayIssue 0 0 = true ∧ sc.cx.inWindow 131040 32 = true ∧ 131040 % 32 = 0 ∧ sc.unheld 131040 32 = true ∧ descBad d = false ∧
    sc.cx.inTile (fld d 160 6) (64 * fld d 166 10) (descSrc e) = true ∧ sc.cx.inTile (fld d 176 6) (64 * fld d 182 10) (descDst e) = true ∧
    sc.cx.inTile (fld d 222 6) (64 * fld d 228 10) (4 * n) = true ∧ collFmtBad d = false ∧ sc.cmdReady (8 * fld d 238 18) = true ∧
    launch.closedSeq.contains (descSeq e) = false ∧ sc.seqs.any (fun r => r.isFor 1 0x338 (descSeq e)) = false ∧
    ((sc.accept k).landS 1 0x098 (BitVec.ofNat 64 k.cw)).tableReady k = true ∧ sc.admits (396 + homeOf (sc.iss.c / 4)) (sc.iss.c / 4) k.spid true = true ∧
    (⟨fld d 202 10, launch.rank, (ctxPos sc.iss.c).toNat, e, rankTable sc.ck.tile rt n, none⟩ : Joined).misnamed = false ∧
    (NMap.get Hart.init (sc.keeper (homeOf (sc.iss.c / 4))).harts 0).stopped = false := by decide +kernel
theorem witness_RecordCommands_coll_launch : sc.launchOf 1 = some launch ∧ launch.hart = some 0 := ⟨rfl, rfl⟩
/-- A layout map of one dimension of 2 elements over two ranks, without and with a flag. -/
def sq (l : List (Nat × Nat)) : State :=
  se 0 (fields [(46, 16383)]) (Mem.writeLE [] 0 128 (fields ([(0, 1), (9, 3), (48, 1), (54, 1023), (86, 1), (96, 3), (192, 64), (256, 128), (320, 2), (512, 1)] ++ l)))
theorem witness_RecordCommands_aq : [[], [(128, 8160), (191, 1)]].all (fun l =>
      let s := sq l
      let m : BitVec 1024 := BitVec.ofNat 1024 (Mem.readLE s.iss.tile0 0 128)
      let w := s.cx.bS 13
      let rt := s.cx.tileAt (fld m 48 6) (64 * fld m 54 10)
      s.mayIssue 0 0 && fld w 0 46 == 0 && s.cx.inWindow 0 128 && s.unheld 0 128 && !mapBad m &&
      s.cx.inTile (fld m 48 6) (64 * fld m 54 10) (4 * mapN m) && (!bit m 191 || s.inWharf (fld m 154 2) (fld m 128 26) 32) &&
      fld m 192 64 % mapW m == 0 && fld m 256 64 % mapW m == 0 && fld m 128 26 % 32 == 0 && s.unheld rt (4 * mapN m) &&
      s.cmdReady (8 * fld w 46 18) && !launch.closedAq.contains (mapSeq m) && !s.seqs.any (fun r => r.isFor 1 0x350 (mapSeq m)) &&
      !(⟨mapRank m, launch.rank, (ctxPos s.iss.c).toNat, m, rankTable s.iss.tile0 rt (mapN m), none⟩ : Joined).misnamed &&
      ok (exec (.engAq 0 0) s)) = true := by decide +kernel
theorem test_record_causes : trapOf (exec (.engTcvt 0 0 1) (se (fields [(0, 1), (8, 2), (16, 13), (32, 1)]) 0 [])) = 0x01 ∧
    trapOf (exec (.engTcvt 0 0 0) (se (fields [(0, 1), (8, 2), (16, 1), (32, 1)]) 0 [])) = 0x03 ∧
    trapOf (exec (.synBatch 0 0) (ss (fields [(0, 2), (20, 1), (24, 1)]) 0 0)) = 0x01 ∧
    trapOf (exec (.synColl 0 0) (ss 131040 0 (fields [(0, 5)]))) = 0x01 ∧ trapOf (exec (.engAq 0 0) (se 32 0 [])) = 0x0C := by decide +kernel

/-! ## Witnesses and tests: control -/

/-- The device with ctl.a and ctl.b, and loop 2 at its last pass. -/
def sl (a b : Nat) : State :=
  stx { ctx with opA := [(14, .s (BitVec.ofNat 64 a))], opB := [(14, .s (BitVec.ofNat 64 b))], lc := [(0, 7), (2, 1)], lstart := [(0, 0x2000)],
                 llen := [(0, 2)], ldrain := [(0, 5)] }
theorem witness_BranchesAndLoops : (sl 0 0).mayIssue 0 0 = true ∧ ((sl 0x2020 0).cx.aS 14).toNat % 32 = 0 ∧
    ((sl 0x2021 0).cx.aS 14).toNat % 32 ≠ 0 ∧ (sl 0x2021 0).iss.free = false ∧ (0 : BitVec 2) ≠ 3 ∧ (2 : BitVec 2) ≠ 3 ∧
    ((sl 0 0).cx.loopCount 2).toNat ≤ 1 ∧ ¬ ((sl 0 0).cx.loopCount 0).toNat ≤ 1 := by decide +kernel
/-- The context that an instruction leaves. -/
def after (i : Instr) (s : State) : Ctx := match exec i s with | .next t => t.ctx 0 | _ => Ctx.init
theorem test_branch : (after (.ctlBr 0 0) (sl (2 ^ 64 - 1) 0)).pc = 0x2FE0 ∧ (after (.ctlJmp 0 0) (sl 0x2020 0)).loopCount 0 = 7 ∧
    (after (.ctlJmp 0 0) (sl 0x2040 0)).loopCount 0 = 0 ∧ trapOf (exec (.ctlJmp 0 0) (sl 0x2021 0)) = 0x0C := by decide +kernel
/-- Counter 7 with 5 drain passes: one more pass has stage 0 on, and the body starts again. -/
theorem test_loopend : (after (.ctlLoopend 0 0 0) (sl 0 0)).sp = 1 ∧ (after (.ctlLoopend 0 0 0) (sl 0 0)).pc = 0x2000 ∧
    (after (.ctlLoopend 0 0 2) (sl 0 0)).pc = 0x3020 ∧ (after (.ctlLoop 0 0 1) (sl 0 3)).pc = 0x3020 + 96 := by decide +kernel
theorem witness_ControlState : (sl 0x106 0).mayIssue 0 0 = true ∧ ((sl 0x106 0).cx.aS 14).toNat = 0x106 ∧
    (sl 0x107 0).sysReg ((sl 0x107 0).cx.aS 14).toNat = none ∧ (sl 5 0).sysReg ((sl 5 0).cx.aS 14).toNat = none ∧
    8 ≤ ((sl 11 0).cx.aS 14).toNat ∧ ((sl 11 0).cx.aS 14).toNat ≤ 11 ∧ ((sl 7 0).cx.aS 14).toNat < 8 ∧ 11 < ((sl 12 0).cx.aS 14).toNat ∧
    ((sl 0x5F 12).cx.bS 14).toNat < 16 ∧ (sl 0x5F 0).cx.vbase ≤ 0x5F - 0x40 ∧ 0x5F - 0x40 < (sl 0x5F 0).cx.vbase + (sl 0x5F 0).cx.vcount ∧
    (Fmt.ofCodeRaw 12).isKB = false ∧ ((sl 258 13).cx.window (258 - 256)).isSome = true ∧
    (sl 258 13).cx.scoreboard (sl 258 13).ck (sl 258 13).iss.gid (258 - 256) = false ∧ (sl 543 0).cx.planes.getLsbD (543 - 512) = true ∧
    (sl 543 0).cx.copyHeld.getLsbD (543 - 512) = false ∧ (10 : BitVec 4).toNat ≤ 10 ∧ (sl 4095 0).cx.spid ≠ 0 ∧
    (sl 0 0).cx.drained (sl 0 0).cx.age 7 = true ∧
    (stx { ctx with storeQ := [⟨.cmd, 1, 0, false, 0⟩], age := 1 }).cx.drained 1 7 = false ∧ (stx { ctx with spid := 0 }).cx.spid = 0 ∧
    ({ sl 255 0 with launches := [{ launch with groups := [BitVec.ofNat 512 (fields [(32, 255), (64, 1)])] }] } : State).isMember 255 = true := by
  decide +kernel
/-- PHASE is read from the launch of the task. -/
theorem witness_ControlState_phase : (sl 2 0).launchOf (sl 2 0).cx.launchId = some launch ∧ ((sl 2 0).cx.aS 14).toNat = 2 := ⟨rfl, by decide +kernel⟩
theorem test_rdsr : flown (exec (.ctlRdsr 0 0) (sl 3 0)) = [(101, .result 0x09C (.s 1000))] ∧
    flown (exec (.ctlRdsr 0 0) (sl 11 0)) = [(101, .result 0x09C (.s 1))] ∧ trapOf (exec (.ctlWrsr 0 0) (sl 3 0)) = 0x01 ∧
    trapOf (exec (.ctlRetag 0 0) (sl 0x40 13)) = 0x03 := by decide +kernel
theorem witness_TrapsAndEnd : (sl 0 0).mayIssue 0 0 = true ∧ (sl 0 0).iss.slot < 8 ∧ (sl 0 0).cx.slot < 8 ∧ (st.ctx 0).task = some ⟨1, 0⟩ := by
  decide +kernel
theorem witness_TrapsAndEnd_launch : st.launchOf 1 = some launch := rfl
theorem test_traps : trapOf (exec (.ctlSys 0 0) (sl 9 0)) = 0x11 ∧ trapOf (exec (.ctlBrk 0 0) (sl 9 0)) = 0x12 ∧
    (after (.ctlEnd 0 0) (sl 9 0)).stat = .free := by decide +kernel
theorem witness_RegisterUnitsFrame : fieldsOf (.redCsumPs 0 0 3) = some (0, 0, 0x2B3) ∧ ok (exec (.iaAdd 0 0 0) st) = true ∧
    fieldsOf (.iaAdd 0 0 0) = some (0, 0, 0x100) ∧
    fieldsOf (.lsSt64 0 0) = some (0, 0, 0x2CB) ∧ ok (exec (.lsSt64 0 0) (stab 8 0x10000 5)) = true := by decide +kernel
theorem witness_SlotMemoryFrame : ok (exec (.lsSt64 0 0) (stab 8 0x10000 5)) = true ∧ fieldsOf (.lsSt64 0 0) = some (0, 0, 0x2CB) ∧
    ok (exec (.move 0 0 0x074) st) = true ∧
    (sm 0 0).path { launch with routes := [(1, 8)] } (dieOf (sm 0 0).iss.c) (fld ((sm 0 0).cx.aS 12) 32 16) ≠ 99 := by decide +kernel
theorem witness_SlotMemoryFrame_launch : (sm 0 0).launchOf (sm 0 0).cx.launchId = some { launch with routes := [(1, 8)] } := rfl

/-! ## Witnesses and tests: events of cores -/

/-- The device with a page table for space 5: pages 0 and 1 of the space stand at frames 0x100000 and 0x200000, readable,
writable and executable, and core 0 is admitted. -/
def pt : State :=
  ({ st with
     spaces := [(5, BitVec.ofNat 128 (fields [(0, 1), (64, 0x10000)]))]
     mem := Mem.writeLE (Mem.writeLE (Mem.writeLE (Mem.writeLE [] 0x10000 8 0x20001) 0x20000 8 0x30001) 0x30000 8 0x10001F) 0x30008 8 0x20001F
   }).giveSlot 0 5
/-- That device with other values in context 0, and with one pending command of core 0. -/
def ptx (x : Ctx) : State := { pt with ctxs := [(0, x)] }
/-- See `ptx`. -/
def ptk (k : Cmd) : State := pt.setCore 0 { pt.core 0 with cmds := [k] }
/-- A flight due now, and one due next cycle. -/
def due (i : Item) : Ctx := { ctx with snap := [⟨3, 100, i⟩] }
/-- A message from core 0 of device 0 to context 0, stamp 7, and a receive word for register 63. -/
def msg : Msg := { payload := 5, stamp := 7, sdev := 0, src := 0, ddev := 0, dst := 0, rel := false, scope := 0, launch := 1 }
/-- A flit of context 0 to itself on the network of die 0, that has left its core. -/
def flit : Flit := { id := 2, port := 24, core := 0, msg := msg, gone := true, age := 0, c := 0, task := ⟨1, 0⟩, took := false, behind := [] }
/-- A berth load of `r` and a claim for `r`, due now, and a result that is due next cycle. -/
def brt (r : Nat) (res : BerthData) : Flight := ⟨4, 100, .berth 8 (word [(0, 1), (12, 3), (21, r)]) res false⟩
/-- See `brt`. -/
def clm (r stamp : Nat) : Flight := ⟨5, 100, .claim 0 1 (word [(0, stamp), (44, r)])⟩
/-- Context 0 with these items in its snapshot buffer and one message in its inlet. -/
def dues (l : List Flight) : State := stx { ctx with snap := l ++ [⟨9, 101, .result 0x82 (.s 9)⟩], inlet := [(1, msg)] }
/-- The items that may land. -/
def lands (l : List Flight) : Bool :=
  let s := dues l
  let x := s.ctx 0
  x.runs && !x.stuck && x.dueItems == l && !x.dueItems.any x.absentItem && l.all (fun f => !f.item.timed) && x.snap.all (fun f => !x.leafReads f)
/-- Nothing due; two results of one port; a berth and then a claim for one register, and the other way about; a claim for x1. -/
theorem witness_EventsLanding :
    [[], [⟨3, 100, .result 0x80 (.s 1)⟩, ⟨4, 100, .result 0x80 (.s 2)⟩], [⟨3, 99, .result 0x9F (.s 1)⟩],
      [brt 63 (.data [1, 2, 3, 4, 5, 6, 7, 8]), clm 63 7], [clm 63 7, brt 63 (.data [1, 2, 3, 4, 5, 6, 7, 8])], [clm 1 7]].all
        (fun l => lands l && (landTrap (dues l) 0).isNone) = true ∧
    ((dues []).ctx 0).claimMsg 0 1 = some msg ∧ (brt 63 (.data [1])).reg = (clm 63 7).reg ∧ (brt 63 (.data [1])).gives.isSome = true ∧
    1 ≤ fld (word [(0, 7), (44, 1)]) 44 6 := by decide +kernel
/-- A berth's fault, first or behind another landing, and a claim of another stamp with no fault beside it. -/
theorem witness_EventsLanding_traps :
    lands [brt 63 (.fault 9 8 []), clm 63 8] = true ∧ lands [clm 63 8, brt 1 (.fault 9 8 [])] = true ∧ berthTrap (clm 63 8) = none ∧
    lands [clm 1 8] = true ∧ msg.stamp ≠ (word [(0, 8), (44, 1)]).setWidth 32 ∧ berthTrap (clm 1 8) = none ∧
    drainTrap ((dues [clm 1 8]).core 0) (clm 1 8) = none ∧ wbeatTrap ((dues [clm 1 8]).ctx 0) (clm 1 8) = none ∧ wharfTrap (clm 1 8) = none := by
  decide +kernel
/-- The later of two results of one port remains, and the item fired last has its register. -/
theorem test_landing_order :
    (match exec (.resultLanding 0) (dues [⟨3, 100, .result 0x80 (.s 1)⟩, ⟨4, 100, .result 0x80 (.s 2)⟩]) with
      | .next t => (t.ctx 0).port 0x80 == .s 2 && (t.ctx 0).snap.length == 1 | _ => false) = true ∧
    (match exec (.berthLanding 0) (dues [clm 63 7, brt 63 (.data [1, 2, 0, 0, 0, 0, 0, 0])]) with
      | .next t => (t.ctx 0).xreg 63 == 0x201 | _ => false) = true ∧
    (match exec (.berthLanding 0) (dues [brt 63 (.data [1, 2, 0, 0, 0, 0, 0, 0]), clm 63 7]) with
      | .next t => (t.ctx 0).xreg 63 == 5 && (t.ctx 0).inlet == [] | _ => false) = true := by decide +kernel
theorem test_landing : ((match exec (.resultLanding 0) (stx (due (.result 0x80 (.s 1)))) with | .next t => t.ctx 0 | _ => Ctx.init).port 0x80 = .s 1) ∧
    trapOf (exec (.berthLanding 0) (stx (due (.berth 8 (word [(0, 1), (12, 3), (21, 63)]) (.fault 9 8 []) false)))) = 9 ∧
    trapOf (exec (.receiveLanding 0) (stx { due (.claim 0 1 (word [(0, 8), (44, 63)])) with inlet := [(1, msg)] })) = 7 := by decide +kernel
/-- A berth that waits, at the last bytes of page 0. -/
def berth : Ctx := { due (.berth 0xFFF8 (word [(0, 1), (12, 3), (21, 1)]) .absent false) with frozenAt := some 0, budget := 0, ckpt := 0,
                                                                                              lclk := 8192, pc := 0x10000 }
theorem witness_EventsFreezing :
    (let s := ptx { ctx with pc := 0xFFE0, budget := 0 }
     (s.ctx 0).runs = true ∧ (s.ctx 0).form = .need 0xFFE0 ∧ s.fenceOpen 0 = true ∧ s.reach 0 5 0xFFE0 ⟨2, false⟩ = .at 0x10FFE0 ∧ s.asleep 0x10FFE0 = false) ∧
    (let s := { ptx berth with wall := 1200 }
     (s.ctx 0).snap.find? (fun f => f.fid == 3) = some ⟨3, 100, .berth 0xFFF8 (word [(0, 1), (12, 3), (21, 1)]) .absent false⟩ ∧
     s.entryReady 0 3 0xFFF8 8 = true ∧ s.berthAnswer 0 5 0xFFF8 8 = .data [0, 0, 0, 0, 0, 0, 0, 0] ∧
     s.berthAnswer 0 5 0x1FFFC 8 = .fault 8 0x20000 [] ∧ (s.ctx 0).stat = .ready ∧ (s.ctx 0).frozenLong s.wall = true ∧
     (s.ctx 0).dueItems.find? (s.ctx 0).absentEndpoint = some ⟨3, 100, .berth 0xFFF8 (word [(0, 1), (12, 3), (21, 1)]) .absent false⟩) ∧
    (let s := { ptx { ctx with frozenAt := some 0, frozenSend := some (2, 0) } with wall := 1200 }
     (s.ctx 0).runs = true ∧ (s.ctx 0).frozenLong s.wall = true ∧ (s.ctx 0).dueItems.find? (s.ctx 0).absentEndpoint = none ∧
     (s.ctx 0).frozenSend = some (2, 0) ∧ s.sendFree 0 0 = true ∧
     ({ s with flits := [flit] } : State).sendFree 0 0 = false) ∧
    ((fetch 0x000100).setCtx 0 { (fetch 0x000100).ctx 0 with budget := 0 }).atStage3 0 = true ∧
    (let s := (fetch 0x000100).setCtx 0 { (fetch 0x000100).ctx 0 with lclk := 8192, ckpt := 0 }
     s.atStage3 0 = true ∧ (s.ctx 0).ckptNext = false ∧ 8192 ≤ ((s.ctx 0).lclk - (s.ctx 0).ckpt).toNat ∧ (s.ctx 0).budget ≠ 0 ∧
     (match (s.ctx 0).form with | .fault _ _ => false | _ => true) = true) := by decide +kernel
theorem test_overdue : trapOf (exec (.checkpointOverdue 0) ((fetch 0x000100).setCtx 0 { (fetch 0x000100).ctx 0 with lclk := 8192, ckpt := 0 })) = 6 ∧
    trapOf (exec (.deadline 0) ((fetch 0x000100).setCtx 0 { (fetch 0x000100).ctx 0 with budget := 0 })) = 5 ∧
    trapOf (exec (.endpointTimeout 0) { ptx berth with wall := 1199 }) = 0 ∧
    trapOf (exec (.endpointTimeout 0) { ptx berth with wall := 1200 }) = 0x0B := by decide +kernel

/-- A pending command of context 0 with a port, its words, its record, its tile range and its sectors. -/
def cmd (port a : Nat) (info : BitVec 1024) (r : Nat × Nat) (n : Nat) : Cmd :=
  { st.newCmd port (BitVec.ofNat 64 a) 0 with id := 1, ranges := [r], info := info, nsec := n, cw := 65528 }
/-- A layout map of 16 elements of 8 bytes over two ranks, from page 0 to page 1. -/
def amap (rank : Nat) : BitVec 1024 :=
  BitVec.ofNat 1024 (fields [(0, 1), (6, 1), (9, 3), (76, rank), (86, 1), (96, 3), (192, 0), (256, 0x10000), (320, 16), (512, 1)])
/-- The sender (rank 0, core 0 of this device) of an exchange with itself in rank 1's place. -/
def aqs : Cmd := { cmd 0x350 0 (amap 0) (0, 128) 0 with ranks := [0, 0x800] }
/-- The 8 elements that rank 0 sends to rank 1. -/
def blk : Packet := ⟨BitVec.ofNat 512 (fields [(29, 1), (32, 3), (84, 1), (112, 8), (128, 0x4000000000000000 + 0x800 * 2 ^ 30)]), [], 1, 0, 0, 0, .data⟩
/-- That block with its bytes, on its way to rank 1, whose command is `aqr`. -/
def blkd : Packet := { blk with payload := List.replicate 64 7 }
/-- See `blkd`. -/
def aqr : Cmd := { aqs with id := 2, c := 1, info := amap 1 }
/-- The exchange of the two, which both have joined. -/
def exch : State :=
  { pt.setCore 0 { pt.core 0 with cmds := [aqs, aqr] } with
    packets := [blkd], seqs := [⟨1, 0x350, 3, [⟨0, 0, 0, amap 0, [0, 0x800], none⟩, ⟨1, 0, 0x800, amap 1, [0, 0x800], none⟩], none, []⟩] }
/-- A transfer of core 0 to tile offset 4096 of core 1. -/
def xfer (kind : PeerKind) : PeerXfer :=
  { launch := 1, sdev := 0, score := 0, ddev := 0, tcore := 1, toff := 4096, len := 64, data := [], kind := kind, code := 0, first := 0, id := 1 }
/-- A grant for it, with its flag word after the last byte it may touch. -/
def grant : Grant := ⟨1, BitVec.ofNat 256 (fields [(0, 1), (32, 0xFFFF), (31, 1), (48, 1), (49, 1), (64, 4096), (96, 64), (128, 4160)])⟩
/-- The device with a peer command, and with its grant at core 1. -/
def peer (port : Nat) : State :=
  (ptk (cmd port (fields [(0, 4096), (32, 1)]) 0 (128, 64) 1)).setCore 1 { Core.init with grants := [grant], heldBy := [(64, 1), (65, 1)] }
theorem witness_EventsCommands :
    (∀ p ∈ [0x340, 0x341], let k := cmd p 0xFF80 0 (64, 128) 2
      let s := ptk k
      s.findCmd 0 1 = some k ∧ sectorReady s 0 k 1 = true ∧ s.pagesAway 0 k.spid k.a.toNat 128 = [] ∧ s.asleep 0x10FFC0 = false ∧
      k.data.any (fun e => e.1 == 1) = false ∧ s.boundHit 0 k.spid k.a.toNat 128 = false ∧
      s.reach 0 5 0xFFC0 Need.counted = .at 0x10FFC0 ∧ s.reach 0 5 0xFFC0 Need.write = .at 0x10FFC0 ∧ inPeer 0x10FFC0 = false ∧ marksHit s.marks 0x10FFC0 64 = false ∧
      marksHit (s.core 0).tmarks 64 64 = false ∧ s.sectorAsleep 0 k 1 = false) ∧
    (let k := { cmd 0x32D 0 0 (0, 32) 2 with b := 0x10040 }
     let s := (ptk k).setCore 0 { (ptk k).core 0 with tile := Mem.writeLE (Mem.writeLE [] 16 8 0xFFF8) 24 8 5 }
     recordReady s 0 k 1 = true ∧ s.reach 0 5 0x10048 Need.write = .at 0x200048 ∧ marksHit (s.core 0).tmarks 16 16 = false ∧ s.asleep 0x200048 = false ∧
     Mem.readLE (s.core 0).tile 16 8 = 0xFFF8 ∧ s.reach 0 5 0xFFF8 Need.write = .at 0x10FFF8 ∧ s.reach 0 5 0xFFF8 Need.read = .at 0x10FFF8 ∧
     inHost 0x10FFF8 = false ∧ inPeer 0x10FFF8 = false ∧ k.data.any (fun e => e.1 == 1) = false ∧ s.asleep 0x10FFF8 = false ∧ marksHit s.marks 0x10FFF8 8 = false) ∧
    (let k := cmd 0x35B 0 (BitVec.ofNat 1024 (fields [(68, 3), (75, 17), (128, 1), (160, 2), (256, 64)])) (0, 64) 1
     let s := ptk k
     nearReady s k = true ∧ nmBlock s 0 k 0 16 false = [.code 0] ∧ nmBlock s 0 { k with prog := 1 } 16 17 true = [.code 0]) ∧
    ([(0x351, PeerKind.write), (0x352, .read)].all (fun e =>
      let k := cmd e.1 (fields [(0, 4096), (32, 1)]) 0 (128, 64) 1
      let s := peer e.1
      let x := xfer e.2
      s.findCmd 0 x.id == some k && coreOfPos x.score.toNat == 0 && k.task.launch == 1 && fld k.a 48 16 == launch.rank &&
      fld k.a 32 11 == x.tcore.toNat && fld k.a 0 21 == x.toff.toNat && k.ended == none && k.prog == 0 && peerReady s 0 k && !s.cutOff 0 0 &&
      s.peerAdmits launch x (e.1 == 0x351) && !(s.dropSlots 5).peerAdmits launch x (e.1 == 0x351) &&
      (s.core 1).grants.find? (fun g => grantPeer g x (e.1 == 0x351) 64) == some grant &&
      firstMark (s.core 0).tmarks 128 64 == none && firstMark (s.core 1).tmarks 4096 64 == none &&
      fld grant.info 128 32 == x.toff.toNat + 64 && (((ptk k).core 1).grants.find? (fun g => grantPeer g x (e.1 == 0x351) 64)).isNone)) = true := by decide +kernel
/-- A block at its sender, for this device and for another, and at its receiver; a command that may end, and one whose bytes wait. -/
theorem witness_EventsCommands_blocks :
    (let s := ptk aqs
     let vas := (List.range 8).map (fun i => mapSaddr aqs.info 1 i)
     isBlock blk = true ∧ fld blk.hdr 29 3 = 1 ∧ blk.note = .data ∧ launch.closedAq.contains (pktSeq blk.hdr) = false ∧
     fld blk.hdr 84 10 + 1 = mapN aqs.info ∧ blockGood aqs.info (blkSender blk.hdr) (blkOff blk.hdr) (blkCount blk.hdr) = true ∧ blk.payload = [] ∧
     s.aqCmd 1 (pktSeq blk.hdr) (fun q => mapRank q.info == blkSender blk.hdr) = some (0, aqs) ∧
     (List.range 2).find? (fun r => (aqs.ranks.getD r 0).toNat / 8192 % 65536 == blkDev blk.hdr &&
       ctxOfPos ((aqs.ranks.getD r 0).toNat % 8192) == blkCtx blk.hdr) = some 1 ∧
     (blkKeys aqs.info 1 (blkOff blk.hdr) (blkCount blk.hdr)).any aqs.done.contains = false ∧
     vas.all (fun va => s.entryReady 0 1 va 8) = true ∧ readBlock s 0 aqs 1 0 8 = .bytes (List.replicate 64 0) ∧
     s.storeAhead aqs 1 = false ∧ s.admits (396 + homeOf 0) 0 5 true = true) ∧
    (let a := blkRange aqr.info blkd
     a = (0x10000, 64) ∧ blkd.payload.length = 64 ∧ exch.hasPkt blkd = true ∧ blkDev blkd.hdr = launch.rank ∧
     exch.cutOff (blkd.src / 6) (homeOf (blkCtx blkd.hdr / 4) / 6) = false ∧ exch.blkInto blkd = some (0, aqr) ∧
     exch.allJoined 1 0x350 (pktSeq blkd.hdr) = true ∧
     (List.range 8).any (fun i => aqr.done.contains (blkOff blkd.hdr + i)) = false ∧ exch.blockTurn launch (0, aqr) blkd = true ∧
     exch.reach 0 5 0x10000 Need.write = .at 0x200000 ∧ exch.asleep 0x200000 = false ∧ (exch.giveSlot (400 + homeOf 0) 5).admits (396 + homeOf 0) (400 + homeOf 0) 5 true = true ∧ edgeMarked exch 0 5 0x10000 64 8 = false ∧
     bit aqr.info 191 = false) ∧
    (let k := cmd 0x340 0xFF80 0 (64, 128) 2
     (ptk k).endFree 0 k 5 = true ∧
     ((ptk k).setCore 0 { pt.core 0 with cmds := [{ cmd 0x341 0 0 (0, 128) 2 with id := 0 }, k] }).endFree 0 k 5 = false) := by decide +kernel
/-- A command that fuses the first element of page 0, its four streams apart. -/
def fuse : Cmd :=
  cmd 0x358 0 (BitVec.ofNat 1024 (fields [(44, 1), (49, 1), (54, 1), (59, 1), (75, 1), (128, 0x3F000000), (160, 0x3F800000),
    (192, 0x3F800000), (320, 64), (384, 128), (448, 192)])) (0, 64) 1
theorem witness_EventsCommands_fuse : nmKind fuse.port = .fuse ∧ 3 ∈ nmUsed .fuse fuse.info ∧
    [0, 1, 2, 3].map (fun t => (ptk fuse).paOf 0 5 (nmAddr fuse.info t)) = [0x100000, 0x100040, 0x100080, 0x1000C0] ∧
    (let s1 := (ptk fuse).putMem 0x100080 (leBytes 4 (encF .fp32 0 (sumRM 0 [.fin false 0 0, .fin false 0 0])))
     s1.paOf 0 5 (nmAddr fuse.info 0) = 0x100000 ∧ (s1.putMem 0x100000 (leBytes 4 0)).paOf 0 5 (nmAddr fuse.info 3) = 0x1000C0) := by
  decide +kernel
/-- 2, 1 and 3 with the factors 0.5, 1 and 1: 1 × 3 + 1 = 4, 1 × 2 + 4 = 6, 2 - 0.5 × 6 = -1 (R276). -/
theorem test_near_fuse :
    let s := { ptk fuse with mem := Mem.writeLE (Mem.writeLE (Mem.writeLE (ptk fuse).mem 0x100000 4 0x40000000) 0x100040 4 0x3F800000) 0x100080 4 0x40400000 }
    (match exec (.nearMemoryExecute 0 1) s with
      | .next t => [0x100000, 0x100080, 0x1000C0].map (fun a => Mem.readLE t.mem a 4) == [0xBF800000, 0x40800000, 0xBF800000]
      | _ => false) = true := by decide +kernel
/-- The launch holds the bytes that a peer transfer reaches; what it does not hold, and has not left, is not its own. -/
theorem witness_EventsCommands_peer : ((peer 0x351).core 1).owns 1 4096 = true ∧ ((peer 0x351).core 1).owns 1 4167 = true ∧
    ((peer 0x352).core 1).ownMark 1 4096 64 = none ∧ (Core.init).owns 1 4096 = false ∧ (Core.init).keptOf 1 (4096 / 64) = none ∧
    (ptk aqs).failing 1 (pktSeq blk.hdr) = false ∧ inPeer 0x200000 = false ∧
    (ptk aqs).aqFront aqs 1 (((ptk aqs).aqRank 1 (mapSeq aqs.info) 1).map (fun j => (fld j.info 256 64, 64))) = false := by decide +kernel
theorem witness_EventsCommands_launch : (peer 0x351).launchOf (xfer .write).launch = some launch ∧ (ptk aqs).launchOf blk.launch = some launch := ⟨rfl, rfl⟩
theorem test_tile_load :
    let k := cmd 0x340 0xFF80 0 (64, 128) 2
    let s := { ptk k with mem := Mem.writeLE (ptk k).mem 0x10FFF8 8 0x77 }
    (match exec (.engineSectorReturn 0 1 1) s with
      | .next t => Mem.readLE (t.core 0).tile 184 8 == 0x77 && (t.core 0).cmds.map (fun k => k.done) == [[1]] | _ => false) = true ∧
    (match exec (.sectorTimeout 0 1 0) { ptk { k with retried := [0] } with wall := 5 } with
      | .next t => Mem.readLE (t.core 0).tile 65528 8 == 0x105 && (t.core 0).cmds == [] | _ => false) = true := by decide +kernel
theorem test_near_fill :
    let k := cmd 0x35B 0 (BitVec.ofNat 1024 (fields [(68, 3), (75, 1), (128, 1), (160, 2), (256, 64)])) (0, 64) 1
    (match exec (.nearMemoryExecute 0 1) (ptk k) with
      | .next t => Mem.readLE t.mem 0x100040 8 == 0x200000001 && Mem.readLE (t.core 0).tile 65528 8 == 0x100 | _ => false) = true ∧
    (match exec (.peerTransferArrival (xfer .write)) (peer 0x351) with
      | .next t => Mem.readLE (t.core 1).tile 4160 8 == 2 ^ 40 + 64 | _ => false) = true := by decide +kernel

/-! ## Witnesses and tests: Wharves, links, lock-keepers -/

/-- The device with that operation at the Wharf of die 0. -/
def swf (port : Nat) (b : Word) : State :=
  ((stx (due (.wharf port 4096 .absent false))).setWharf 0 { st.wharf 0 with vars := [(4096, 5)], inq := [wop port b] }).giveSlot 0 5
theorem witness_EventsWharf :
    ([0x310, 0x311, 0x312, 0x314, 0x315, 0x316, 0x317, 0x318, 0x319, 0x31A, 0x31B, 0x32B, 0x320, 0x327].all (fun p =>
      let s := swf p 7
      (s.wharf 0).inq.find? (fun o => o.id == 4) == some (wop p 7) && wharfReady s 0 (wop p 7) && !s.timedOut 0 3 &&
      s.opStack 0 (wop p 7) == none && !s.cutOff 0 0 && s.admits 392 0 5 true && s.admits 392 0 5 false && !(s.dropSlots 5).admits 392 0 5 true &&
      wharfReady (s.dropSlots 5) 0 (wop p 7) &&
      !s.armedAt 0 4096 && (s.wharf 0).waiters == [] && !(s.wharf 0).barriers.contains (4096 / 32 * 32))) = true ∧
    [0x311, 0x312, 0x313, 0x314, 0x317, 0x318, 0x31B, 0x32B, 0x320, 0x327].all (fun p =>
      let s := (swf p 7).setWharf 0 { (swf p 7).wharf 0 with armed := [⟨9, 4096, 0, 1, 5, 0⟩] }
      s.armedAt 0 4096 && wharfReady s 0 (wop p 7)) = true ∧
    (let s := (swf 0x310 7).setWharf 0 { (swf 0x310 7).wharf 0 with replies := [(0, 3, .ok 5)] }
     ((s.wharfs.filter (fun e => !s.cutOff e.1 0)).flatMap (fun e => e.2.replies)).find? (fun r => r.1 == 0 && r.2.1 == 3) = some (0, 3, .ok 5) ∧
     (s.ctx 0).snap.any (fun f => f.fid == 3) = true) ∧
    (let s := st.setWharf 0 { st.wharf 0 with waiters := [⟨wop 0x31F 7, 4096, some 0⟩] }
     (s.wharf 0).waiters.find? (fun w => w.op.id == 4) = some ⟨wop 0x31F 7, 4096, some 0⟩ ∧ s.wall ≤ 0 ∧ 0 < ({ s with wall := 1 } : State).wall ∧ (wop 0x31F 7).port ≠ 0 ∧
     Waiter.late ⟨wop 0x31F 7, 4096, some 0⟩ s.wall = false ∧ s.cutOff 0 3 = false) := by decide +kernel
theorem test_wharf : (match exec (.wharfOperationPerform 0 4) (swf 0x314 (2 ^ 64 - 1)) with
      | .next t => t.var 0 4096 == 2 ^ 64 - 1 && (t.wharf 0).replies == [(0, 3, .ok 5)] | _ => false) = true ∧
    (match exec (.wharfOperationPerform 0 4) (swf 0x321 9) with | .next t => t.var 0 4096 == 9 | _ => false) = true := by decide +kernel
/-- The device with an operation at the Wharf of die 0 whose words from 4096 on hold these values, and its Wharf otherwise. -/
def swv (port b : Nat) (v : List Nat) (f : Wharf → Wharf) : State :=
  let s := swf port (BitVec.ofNat 64 b)
  s.setWharf 0 (f { s.wharf 0 with vars := v.zipIdx.map (fun e => (4096 + 8 * e.2, BitVec.ofNat 64 e.1)) })
/-- The operation of `swv` may perform. -/
def mayOp (s : State) : Bool :=
  match (s.wharf 0).inq with
  | op :: _ => wharfReady s 0 op && !s.timedOut 0 3 && (s.opStack 0 op).isNone && !s.cutOff 0 0 && s.admits 392 0 5 (!op.reads)
  | [] => false
/-- A record that expects `e` arrivals, with `c` of them and `n` of the next phase, at index `ix`, its gate open or closed. -/
def rec0 (ix gate c n e : Nat) : Nat := fields [(0, ix), (9, gate), (16, c), (32, n), (48, e)]
/-- Arrivals: with nothing expected; one of two; the last, before its bytes and after; for the next phase, and one too many. -/
theorem witness_BarriersAndCounters_records :
    [(0x31D, 2 ^ 48 - 1, [0]), (0x31C, 0, [0]), (0x31C, 1, [rec0 511 0 65533 0 65535]), (0x31C, 8, [rec0 0 0 0 0 1]), (0x31C, 8, [rec0 511 0 0 0 1, 0, 8]),
      (0x31C, 0, [rec0 511 1 1 0 1, 8, 7, 8]), (0x31C, 0, [rec0 0 1 1 1 1, 8, 0, 8])].all (fun p =>
        let s := swv p.1 p.2.1 p.2.2 id
        mayOp s && !s.recArmed 0 4096 && (s.wharf 0).heldArr == []) = true ∧
    (let s := swv 0x31C 8 [rec0 0 0 0 0 1] id
     s.curArr 0 4096 + 1 = s.expectArr 0 4096 ∧ 2 ^ 47 ≤ (fld (s.var 0 4112) 0 48 + 2 ^ 48 - 8) % 2 ^ 48) ∧
    (let s := swv 0x31C 8 [rec0 511 0 0 0 1, 0, 8] id
     ¬ 2 ^ 47 ≤ (fld (s.var 0 4112) 0 48 + 2 ^ 48 - 8) % 2 ^ 48 ∧ s.phaseIx 0 4096 = 511 ∧ s.nextArr 0 4096 < s.expectArr 0 4096) ∧
    (let s := swv 0x31C 0 [rec0 511 1 1 0 1, 8, 7, 8] id
     bit (s.var 0 4096) 9 = true ∧ 2 ^ 47 ≤ (fld (s.var 0 4112) 0 48 + 2 ^ 48 - fld (s.var 0 4120) 0 48) % 2 ^ 48 ∧
     s.curArr 0 4096 = s.expectArr 0 4096 ∧ s.nextArr 0 4096 < s.expectArr 0 4096) := by decide +kernel
/-- Waits for the phase before the record's, for each side of the half, and with the limits 0, 1 and the greatest. -/
theorem witness_BarriersAndCounters_waits :
    [(0, 511, 0), (1, 510, 0), (255, 256, 0), (256, 255, 0), (1, 0, 1), (1, 0, 2 ^ 32 - 1)].all (fun p =>
      [0x31E, 0x31F].all (fun q =>
        let s := swv q (fields [(0, (p.1 + p.2.1) % 512), (32, p.2.2)]) [rec0 p.1 0 0 0 1] (fun k => { k with barriers := [4096] })
        mayOp s && (s.wharf 0).barriers.contains 4096 && ((p.1 + p.2.1) % 512 + 512 - s.phaseIx 0 4096) % 512 == p.2.1)) = true := by
  decide +kernel
/-- Contributions in turn, alone and with the next one buffered; early ones and late ones at the ends of their ranges. -/
theorem witness_BarriersAndCounters_sums :
    [(0, 0), (65535, 65535), (65535, 0), (1, 32768), (0, 32768), (1, 0)].all (fun p =>
      let s := swv 0x313 (fields [(0, 0x3F800000), (32, p.2)]) [fields [(32, p.1)]] id
      mayOp s && !s.armedAt 0 4096 && !(s.wharf 0).barriers.contains 4096) = true ∧
    (let o := wop 0x313 (word [(32, 1)])
     let s := swv 0x313 0 [0] (fun k => { k with reorder := [(4096, o)] })
     mayOp s = true ∧ (s.wharf 0).reorder = [(4096, o)] ∧ fld o.b 32 16 = 1) := by decide +kernel
/-- An increment that wraps, one that reaches nothing, and one that fires an operation on the variable before; a counter wait on
each side of its threshold; arming with room, and where 256 operations stand; a cancelling write. -/
theorem witness_BarriersAndCounters_counters :
    (let c (k : Wharf) := { k with inq := k.inq.map (fun o => { o with cmd := some 1 }) }
     let a : Armed := ⟨9, 4096, BitVec.ofNat 256 (fields [(12, 4112), (64, 8), (128, 4104), (192, 3)]), 1, 5, 0⟩
     mayOp (swv 0x329 1 [2 ^ 64 - 1] c) = true ∧ mayOp (swv 0x329 1 [2 ^ 64 - 2] c) = true ∧
     mayOp (swv 0x329 3 [5] (fun k => { c k with armed := [a] })) = true ∧
     (let s := swv 0x329 3 [5] (fun k => { c k with armed := [a] })
      (s.wharf 0).armed.filter (fun a => a.key == 4096 && decide (fld a.info 64 64 ≤ 8)) = [a] ∧ fld a.info 0 4 = 0 ∧
      fld (BitVec.ofNat 64 (fld a.info 128 64) : Word) 0 26 = 4104 ∧ s.varAsleep 0 4104 = false ∧ s.armedAt 0 4104 = false)) ∧
    mayOp (swv 0x328 5 [5] id) = true ∧ mayOp (swv 0x328 6 [5] id) = true ∧
    (let s := (swv 0x32A 0 [5] (fun k => { k with armed := List.replicate 256 ⟨9, 4096, 0, 1, 5, 0⟩ }))
     mayOp s = true ∧ 256 ≤ ((s.wharf 0).armed.filter (fun a => a.key == 4096)).length) ∧
    (let s := swv 0x32A 0 [5] (fun k => { k with inq := k.inq.map (fun o => { o with info := BitVec.ofNat 256 (fields [(64, 6)]) }) })
     mayOp s = true ∧ (s.wharf 0).armed = [] ∧ (s.var 0 4096).toNat < 6) ∧
    (let s := swv 0x32C 9 [5] (fun k => { k with armed := [⟨9, 4096, BitVec.ofNat 256 (fields [(12, 4104)]), 1, 5, 0⟩] })
     mayOp s = true ∧ (s.wharf 0).barriers = []) := by decide +kernel
/-- The arrival that completes a phase opens the next; a cancelled operation has its report with the counter. -/
theorem test_barrier : (match exec (.wharfOperationPerform 0 4) (swv 0x31C 8 [rec0 511 0 0 0 1, 0, 8] id) with
      | .next t => (t.phaseIx 0 4096, t.curArr 0 4096, (t.wharf 0).replies) == (0, 0, [(0, 3, .ok 511)]) | _ => false) = true ∧
    (match exec (.wharfOperationPerform 0 4)
        (swv 0x32C 9 [5] (fun k => { k with armed := [⟨9, 4096, BitVec.ofNat 256 (fields [(12, 4104)]), 1, 5, 0⟩] })) with
      | .next t => t.var 0 4096 == 9 && t.var 0 4104 == 0x107 && (t.wharf 0).armed == [] | _ => false) = true := by decide +kernel
theorem witness_EventsLinks :
    (let s := { st with flits := [flit] }
     msg.ddev.toNat = launch.rank ∧ s.holdsLaunch 0 1 = true ∧ (s.ctx 0).inlet.length < 64 ∧
     s.flits.find? (fun f => f.msg == msg && !f.took) = some flit ∧ s.flitFree flit = true ∧ s.flitFirst flit = true ∧ s.cutOff (flit.core / 96) (dieOf 0) = false ∧
     s.flits.find? (fun f => f.id == 2) = some flit) ∧
    ({ flit with took := true } : Flit).took = true ∧ st.deadPorts.contains 23 = false ∧ ({ msg with sdev := 1 } : Msg).sdev.toNat ≠ launch.rank := by
  decide +kernel
theorem test_link_down : (match exec (.linkDown 0) { st with flits := [{ flit with port := 0, msg := { msg with ddev := 1 } }], launches := [{ launch with routes := [(1, 0x98)] }] } with
    | .next t => t.flits.map (fun f => f.port) == [1] && t.deadPorts == [0] | _ => false) = true := by decide +kernel
/-- A packet with one entry of a kind for core 0 of this device, and one for device 1; 64 bytes of FP32. -/
def pkt (kind dev arg : Nat) : Packet :=
  ⟨BitVec.ofNat 512 (fields [(16, 1), (24, 1), (29, 1), (32, 3), (128, arg), (172, dev), (188, kind)]), List.replicate 64 0, 1, 0, 0, 0, .data⟩
/-- A pending collective, and an emit record for its first sector. -/
def coll : Cmd :=
  { cmd 0x338 0 (BitVec.ofNat 1024 (fields [(8, 1), (32, 1), (128, 3)])) (0, 32) 0 with
    ranges := [(0, 32), (64, 4), (128, 64), (256, 64)], ranks := [0] }
/-- See `coll`. -/
def emitRec : BitVec 640 := BitVec.ofNat 640 (fields [(16, 1), (24, 1), (29, 1), (32, 3), (188, 3), (512, 1)])
/-- The device with a packet, the firmware of the launch at the home lock-keeper of core 0, which admits it, and the collective,
which its one rank has joined. -/
def lks (p : Packet) : State :=
  ((({ ptk { coll with prog := 1 } with
       packets := [p], seqs := [⟨1, 0x338, 3, [⟨0, 0, 0, coll.info, [0], none⟩], none, []⟩] } : State).setHart (homeOf 0) 0
    { Hart.init with launch := some 1 }).giveSlot (400 + homeOf 0) 5)
theorem witness_EventsLockKeepers_hops :
    ([(1, 0, 0), (2, 0, 0), (3, 0, 0), (5, 0, 0), (5, 0, 2 ^ 29 + 2 ^ 23 - 1), (1, 1, 0), (6, 0, 0)].all (fun p =>
      let q := pkt p.1 p.2.1 p.2.2
      let s := lks q
      let e := pktEntry q.hdr 0
      let lk := hopKeeper q
      !isBlock q && s.packets.contains q && !s.hopBehind launch q && fld q.hdr 29 3 == 1 && q.payload.length == pktBytes q.hdr &&
      entDev e == p.2.1 && entKind e == p.1 && entBad e == (p.1 == 6) && !launch.closedSeq.contains (pktSeq q.hdr) &&
      (p.2.1 == 1 || (s.holdsFw launch lk && !s.cutOff 0 (lk / 6) && !(s.keeper lk).stopped && s.admits (396 + lk) 400 5 true &&
        !(s.dropSlots 5).admits (396 + lk) 400 5 true)))) = true := by decide +kernel
theorem witness_EventsLockKeepers_leave :
    (let s := lks (pkt 1 1 0)
     ({ s with outbound := [⟨7, 1, 0, some 0, 4096, .pkt blk, []⟩] } : State).leave { launch with routes := [(1, 0x98)] } 0 1 1 (.pkt (pkt 1 1 0))).isNone = true ∧
    ((lks (pkt 1 1 0)).leave { launch with routes := [(1, 0x98)] } 0 1 1 (.pkt (pkt 1 1 0))).isSome = true := by decide +kernel
/-- The DELIVER of a packet with one more entry. -/
def pkt2 : Packet := { pkt 3 0 0 with hdr := (pkt 3 0 0).hdr + 0x20000000 }
theorem witness_EventsLockKeepers_deliver :
    let s := lks pkt2
    let k := { coll with prog := 1 }
    1 < fld pkt2.hdr 29 3 ∧ (s.core 0).cmds.find? (fun k => k.c == 0 && k.port == 0x338 && k.task.launch == 1 && k.hasJoined &&
      descSeq k.info == pktSeq pkt2.hdr) = some k ∧ fld k.info 8 5 = fld pkt2.hdr 24 5 ∧ fld k.info 4 2 = fld pkt2.hdr 22 2 ∧
    fld k.info 192 10 = fld pkt2.hdr 84 10 ∧ 64 * entArg (pktEntry pkt2.hdr 0) + pkt2.payload.length ≤ descDst k.info ∧
    s.admits 0 400 5 true = true ∧ s.allJoined 1 0x338 (pktSeq pkt2.hdr) = true ∧ s.tileFree 0 k 256 64 = true := by decide +kernel
theorem witness_EventsLockKeepers :
    launch.hart.isSome = true ∧
    (let s := lks (pkt 1 0 0)
     let k := { coll with prog := 1 }
     (s.hart (homeOf 0) 0).launch = some 1 ∧ (s.hart (homeOf 0) 0).stopped = false ∧ 130992 % 16 = 0 ∧ 130992 + 80 ≤ 131072 ∧
     s.emitCmd (homeOf 0) 1 (fld emitRec 512 32) = some (0, k) ∧ emitBad k emitRec = false ∧
     s.findCmd 0 1 = some k ∧ s.tileFree 0 k 128 64 = true ∧ marksHit (s.core 0).tmarks 128 64 = false ∧
     ((ptk k).setCore 0 { pt.core 0 with cmds := [{ cmd 0x340 0 0 (128, 64) 1 with id := 0 }, k] }).tileFree 0 k 128 64 = false) := by
  decide +kernel
/-- An emit whose source is refused to the lock-keeper, one over a marked line, and one whose collective has been saved. -/
theorem witness_EventsLockKeepers_source :
    (let s := lks (pkt 1 0 0)
     (s.core 0).cmds.any (fun m => m.id == 1) = true ∧ s.admits 0 (400 + homeOf 0) 5 false = true ∧
     (s.dropSlots 5).admits 0 (400 + homeOf 0) 5 false = false ∧
     marksHit ((s.setCore 0 { s.core 0 with tmarks := [(2, 1)] }).core 0).tmarks 128 64 = true) ∧
    (let k := { coll with prog := 1 }
     let s := { st with saved := [⟨⟨1, 0⟩, 0, 5, 0x600000, false, ctx, [k], [], [], [], [], false, [], []⟩] }
     s.findCmd 0 1 = some k ∧ (s.core 0).cmds.any (fun m => m.id == 1) = false) := by decide +kernel
theorem test_packet : (match exec (.packetHop (pkt 3 0 0)) (lks (pkt 3 0 0)) with
      | .next t => t.packets == [] && (t.core 0).cmds.map (fun k => k.delivered) == [64] | _ => false) = true ∧
    (match exec (.lkemit (homeOf 0) 0 0 emitRec) (lks (pkt 1 0 0)) with
      | .next t => (t.keeper (homeOf 0)).emits.length == 1 && (t.hart (homeOf 0) 0).emitted == 1 | _ => false) = true := by decide +kernel

/-! ## Witnesses and tests: pages, tables, contexts, the debugger -/

/-- The paged device with page 0 in the compressed tier, its descriptor 9, and two frames in the pool. -/
def tier : State :=
  { pt with mem := Mem.writeLE pt.mem 0x30000 8 (0x3F + 9 * 32768), tier := [(9, ⟨[(65535, 7)], [], []⟩)], pools := [(0, [0x300000, 0x400000])] }
theorem witness_EventsPages :
    tier.walk 5 0xFFFF = .leaf 0x30000 (word [(0, 0x3F), (15, 9)]) false ∧ bit (word [(0, 0x3F), (15, 9)]) 5 = true ∧
    (tier.tier.find? (fun t => t.1 == ptePa (word [(0, 0x3F), (15, 9)]) / 32768)).isSome = true ∧
    (match needRun tier (spPart (tier.space 5)) 1 (tier.keeps 5 0) with | .ok r => r.1 == 0x300000 | .error _ => false) = true ∧ tier.kernelAsleep [] = none ∧
    tier.walk 5 0x10000 = .leaf 0x30008 0x20001F false ∧ bit (0x20001F : Word) 7 = false ∧ bit (0x20001F : Word) 5 = false ∧
    inHbm (ptePa 0x20001F) = true ∧ ptePa 0x20001F = 0x200000 ∧ (tier.pool (spPart (tier.space 5))).contains 0x400000 = true ∧
    tier.walk 5 0x20000 = .fault ∧ tier.unmappable.contains (5, 2) = false ∧ pteBad 0x50001F 3 = false ∧ pteBad (word [(0, 0x23), (15, 1)]) 3 = false ∧
    bit (tier.space 5) 0 = true ∧ ptePa 0x50001F ≠ 0 ∧ tier.walk 5 0xFFFFFFF = .fault ∧ bit (0x50001F : Word) 0 = true ∧ bit (0x50001F : Word) 1 = true ∧
    ptePa 0x1F = 0 ∧
    (match needEntry tier 5 0xFFFFFFF false (tier.keeps 5 0xFFF) with
      | .ok (a, s1) => a == 0x37FF8 && (match needRun s1 (spPart (s1.space 5)) 1 (s1.keeps 5 0xFFF) with | .ok r => r.1 == 0x300000 | .error _ => false)
      | .error _ => false) = true := by decide +kernel
/-- The paged device with the storage port admitted, and its frame tag table at 0x800000, where frame 0x100000 has this tag. -/
def tagged (tag : Nat) : State :=
  let s := pt.giveSlot 425 5
  { s with mr := [(0x360, 0x800000)], mem := Mem.writeLE s.mem 0x800020 2 tag }
/-- The table stands nowhere yet, or below and above a page. -/
theorem witness_EventsPages_tags : tier.tagsApart 0x300000 65536 ∧ tier.tagsApart 0x30008 8 ∧ (tagged 4).tagsApart 0x7F0000 65536 ∧
    (tagged 4).tagsApart 0x1800000 65536 := by
  have h1 (lo n : Nat) : tier.tagsApart lo n := fun f a h => by
    have h2 : tier.mr.find? (fun e => e.1 == 0x360) = none := by decide +kernel
    rw [State.tagPlace, h2] at h
    split at h <;> cases h
  have h3 (lo n : Nat) (hl : lo + n ≤ 0x800000 ∨ 0x1800000 ≤ lo) : (tagged 4).tagsApart lo n := fun f a h => by
    have h4 : (tagged 4).mr.find? (fun e => e.1 == 0x360) = some (0x360, 0x800000) := by decide +kernel
    rw [State.tagPlace, h4] at h
    split at h
    · rename_i hf
      obtain rfl := Option.some.inj h
      simp only [inHbm, decide_eq_true_eq] at hf
      have : (0x800000 : Word).toNat = 0x800000 := by decide
      dsimp only
      omega
    · cases h
  exact ⟨h1 _ _, h1 _ _, h3 _ _ (.inl (by decide)), h3 _ _ (.inr (by decide))⟩
theorem witness_EventsPages_frames : tier.asleep 0x200000 = false ∧ tier.firstAsleep [0x200000, 0x400000] = none ∧
    tier.requested 5 2 = false ∧ ({ tier with pageReqs := [(5, 2, 3)] } : State).requested 5 2 = true ∧
    [(383, 3), (384, 0), (399, 3), (400, 0), (423, 3), (425, 1), (424, 0)].all (fun p => dieOfMaster p.1 == p.2) = true := by decide +kernel
theorem test_expansion : (match exec (.pageExpansion 5 0) tier with
      | .next t => Mem.get t.mem 0x30FFFF == 7 && t.pteAt 0x30000 == 0x30005F && t.tier == [] | _ => false) = true ∧
    (match exec (.pageMapped 5 0x20000 0x50001F) tier with | .next t => t.walk 5 0x20000 == .leaf 0x30010 0x50001F false | _ => false) = true := by
  decide +kernel
theorem witness_EventsTables :
    ((0x500000 : Word).toNat % 65536 = 0 ∧ inHbm (0x500000 : Word).toNat = true ∧ (∀ e ∈ tier.pools, (0x500000 : Word).toNat ∉ e.2)) ∧
    tier.pool (fld (tier.mreg 0x370) 0 4) = 0x300000 :: [0x400000] ∧ st.pool (fld (st.mreg 0x370) 0 4) = [] ∧
    (let s := st.setMreg 0x350 (word [(0, 425), (16, 511), (32, 7)])
     fld (s.mreg 0x350) 0 9 < 426 ∧ fld (s.mreg 0x350) 16 9 = 511) ∧
    fld ((st.setMreg 0x350 (word [(16, 421)])).mreg 0x350) 16 9 < 422 ∧
    ({ st with selfRef := 0x7F } : State).selfRef.getLsbD (511 / 64) = false ∧
    (let b : BitVec 8 := 0x8F
     bit b 7 = true ∧ fld b 0 4 = 15 ∧ (BitVec.ofNat 16 0x8000).getLsbD 15 = true ∧ (BitVec.ofNat 16 0x7FFF).getLsbD 15 = false) ∧
    inHost (0x1FFFFFFFFFF8 : Word).toNat = true ∧ (0x1FFFFFFFFFF8 : Word).toNat + 8 ≤ 0x200000000000 ∧ (0x3FFFFF8 : Word).toNat < 0x4000000 ∧
    (let s := tagged 0xFFFF
     s.reach 425 5 0xFFFF ⟨1, true⟩ = .at 0x10FFFF ∧ s.asleep 0x10FFFF = false) := by decide +kernel
theorem witness_EventsTables_storage :
    let s := { tagged 4 with launches := [{ launch with regions := [BitVec.ofNat 512 (fields [(0, 4), (16, 1), (64, 0), (128, 65536)])] }] }
    s.storageFrame 5 0x10FFFF = true ∧ s.reach 425 5 0xFFFF ⟨1, true⟩ = .at 0x10FFFF ∧ s.asleep 0x10FFFF = false ∧ s.portQ = [] ∧
    bit (s.space 5) 0 = true ∧ s.reach 425 5 0x20000 ⟨1, true⟩ = .unmapped := by decide +kernel
/-- The first slot of a turn and one inside it. -/
theorem witness_EventsTables_turn :
    (let s := { st with slots := [(0, 0x8F), (1, 0x81)], turnSlots := [(1, 0x82)], slotAt := [(511, 63)] }
     NMap.get 0 s.slotAt 0 = 0 ∧ NMap.get 0 s.slotAt 511 = 63 ∧ s.selfRef.getLsbD 7 = false) := by decide +kernel
/-- A shoot-down that waits for a store which is away, and one that has performed. -/
theorem witness_EventsTables_shoot : ({ ptk { cmd 0x341 0 0 (0, 128) 2 with away := [1] } with shooting := [(0, 1, 1)] } : State).shootPending = true ∧
    ({ st with shooting := [(0, 1, 1)] } : State).shootPending = false ∧
    (ptk { cmd 0x341 0 0 (0, 128) 2 with away := [1] }).peerAway 5 = [(0, 1, 1)] := by decide +kernel
/-- A DMA read of the last byte of page 0, one of a page that is not mapped, and one where the port has no slot. -/
theorem witness_EventsTables_reads :
    (tagged 0xFFFF).reach 425 5 0xFFFF Need.read = .at 0x10FFFF ∧ (tagged 0xFFFF).asleep 0x10FFFF = false ∧ (tagged 0xFFFF).portQ = [] ∧
    bit ((tagged 0xFFFF).space 5) 0 = true ∧ (tagged 0xFFFF).reach 425 5 0x20000 Need.read = .unmapped ∧ (tagged 4).reach 425 5 0xFFFF Need.read = .denied ∧
    ({ tagged 0xFFFF with mem := Mem.writeLE (tagged 0xFFFF).mem 0x30000 8 0x100013 }).reach 425 5 0xFFFF Need.read = .denied ∧
    (tagged 0xFFFF).reach 425 5 (2 ^ 52) Need.read = .noMap ∧ (0xFFFF : Word).toNat / 65536 = ((0xFFFF : Word).toNat + 1 - 1) / 65536 := by
  decide +kernel
theorem test_slotval : (match exec (.slotval 0x8F) (st.setMreg 0x340 (word [(0, 511), (16, 63)])) with
    | .next t => NMap.get 0 t.slots (64 * 511 + 63) == 0x8F | _ => false) = true := by decide +kernel
/-- An image of context 0 that names nothing, in physical memory, and the task that was saved in it. -/
def img : List Byte := imageOf (stx { ctx with planes := 0, bays := 0, win := [], ttag := [] }) 0 true
/-- See `img`. -/
def sav : Saved :=
  ⟨⟨1, 0⟩, 0, 5, 0x600000, false, { ctx with planes := 0, bays := 0, win := [], ttag := [] }, [], [], [], [], [], false, [], []⟩
/-- See `img`. -/
def saved : State := { st with ctxs := [], launches := [{ launch with tstat := [(0, .preempted 0)] }], saved := [sav], mem := Mem.write [] 0x600000 img }
theorem witness_EventsContexts :
    (let s := stx { ctx with stat := .trapped, trec := [(0, 0x11)] }
     (s.ctx 0).stat = .trapped ∧ (s.ctx 0).cause ∈ [0x0B, 0x10, 0x11] ∧ s.asked 0 = false) ∧
    (let s := stx { ctx with stat := .trapped, trec := [(0, 0x13)] }
     (s.ctx 0).cause ∉ [0x08, 0x0B, 0x10, 0x11, 0x12] ∧ (s.ctx 0).task = some ⟨1, 0⟩) ∧
    (st.ctx 0).stat = .ready ∧ (st.core (0 / 4)).preempt = none ∧
    (let s := stx { ctx with stat := .staging }
     (s.ctx 0).stat ≠ .ready ∧ (s.ctx 0).task.isSome = true ∧ s.heldFor 0 = false ∧ s.intReq.contains 0 = false) ∧
    (let s := st.setCore 0 { st.core 0 with preempt := some 0 }
     (s.ctx 0).runs = true ∧ s.asked 0 = true) ∧
    ((fetch 0).ctx 0).ckptNext = false ∧ ({ (fetch 0).ctx 0 with ibuf := [(0, .bundle (oneSlot 0 + 2 ^ 20))] } : Ctx).ckptNext = true ∧
    (let s := stx { ctx with stat := .halted }
     (s.ctx 0).stat = .halted ∧ s.saveReady 0 = true) := by decide +kernel
theorem witness_EventsContexts_launch : st.launchOf 1 = some launch := rfl
theorem witness_EventsContexts_restore : (saved.restorable 0).map (fun v => (v.c, v.addr)) = some (0, 0x600000) ∧
    (readImage (Mem.read saved.mem 0x600000 (min (Mem.readLE saved.mem (0x600000 + 48) 8) (2 ^ 26))) 0).map (fun e => e.1) = some 0 ∧
    readImage (Mem.read [] 0x600000 0) 0 = none ∧ (saved.keeper (homeOf 0)).buf = [] ∧ saved.clearFor 0 sav.kept = true ∧ sav.cmds = [] ∧
    saved.firstAsleep (sav.addr :: sav.frames) = none := by decide +kernel
theorem witness_EventsContexts_marked :
    marksHit ({ saved with marks := [(0x18000, 1)] } : State).marks 0x600000 64 = true ∧ marksHit ([] : NMap (BitVec 64)) 0x600000 64 = false ∧
    saved.marks = [] := ⟨by decide +kernel, by decide +kernel, rfl⟩
theorem witness_EventsContexts_halt :
    (let s := (st.setCore 0 { st.core 0 with preempt := some 0 }).setCtx 0
       { ctx with pc := 0, ibuf := [(0, .bundle (oneSlot 0 + 2 ^ 20))], frz := some .endpoint, frozenSend := some (2, 0) }
     (s.ctx 0).runs = true ∧ s.asked 0 = true ∧ (s.ctx 0).ckptNext = true ∧ s.sendFree 0 0 = true) ∧
    (let x := { ctx with frz := some FreezeKind.await }
     x.runs = true ∧ x.ckptNext = false ∧ x.frz ∈ [some .engine, some .program, some .await, some .fetch]) := by decide +kernel
/-- The device with ATTACH set and context 0 held, its image in host memory at 0 and as SAVE wrote it. -/
def held : State :=
  { stx { ctx with stat := .held, planes := 0, bays := 0, win := [], ttag := [] } with
    mr := [(0x400, 1), (0x420, 0x100000)], saved := [{ sav with forDebug := true, orig := img }], mem := Mem.write [] 0x100000000000 img }
theorem witness_EventsDebugger :
    st.attached = false ∧ (st.setMreg 0x400 1).attached = true ∧ st.dbgOk = true ∧ (st.ctx st.dbgCtx).task.isSome = true ∧
    (st.ctx st.dbgCtx).stat = .ready ∧ held.attached = true ∧ held.dbgOk = true ∧ held.heldFor held.dbgCtx = true ∧
    held.saveReady held.dbgCtx = true ∧ ({ held with saved := [] } : State).dbgSaved 0 = none ∧
    held.dbgSaved 0 = some { sav with forDebug := true, orig := img } ∧
    st.dbgSaving = none ∧ held.dbgSaving = none ∧ ({ st with dbgSaving := some 0 } : State).dbgSaving.isSome = true ∧
    regMask (0x100 : Word).toNat = some (true, 0xFFFFFFFFFFFFFFFF) ∧ regMask (0x330 : Word).toNat = some (false, 0xFFFF) := by decide +kernel
/-- A held context whose berth load has still to be replied. -/
theorem witness_EventsDebugger_begins :
    let s := held.setCtx 0 { held.ctx 0 with snap := [⟨3, 100, .berth 8 (word [(0, 1), (12, 3), (21, 1)]) .absent false⟩] }
    s.attached = true ∧ s.dbgOk = true ∧ s.heldFor s.dbgCtx = true ∧ s.saveReady s.dbgCtx = false ∧
    bit (s.mreg 0x428) 0 = false := by decide +kernel
theorem witness_EventsDebugger_table : ({ st with selfRef := 1 } : State).firstAsleep [0, 2 ^ 24 - 1] = some 0 ∧ st.tagPlace 0 = none ∧
    (tagged 4).tagPlace 0 = some 0x800000 ∧ (tagged 4).firstAsleep [0x900000, 0x18FFFFF, 0x800000, 0x17FFFFF] = none := by decide +kernel
theorem witness_EventsDebugger_edit :
    let bs := held.readHost 0 (min (leAt (held.readHost 0 64) 48 8) (2 ^ 26))
    editedOk img bs 0 = true ∧ (readImage bs 0).isSome = true ∧ ¬ (held.mreg 0x420).toNat < bs.length ∧ ((held.setMreg 0x420 64).mreg 0x420).toNat < bs.length ∧ editedOk img [] 0 = false := by decide +kernel
/-- A held context whose latches and ports all hold scalars, and whose image is short. -/
def short : State :=
  let l : NMap PVal := (List.range 15).map (fun u => (u, .s 0))
  held.setCtx 0 { held.ctx 0 with vcount := 0, opA := l, opB := l, resQ := l, resQ2 := l }
theorem witness_EventsDebugger_save : short.heldFor short.dbgCtx = true ∧ (imageOf short 0 false).length ≤ (short.mreg 0x420).toNat ∧
    (short.mreg 0x418).toNat + (imageOf short 0 false).length ≤ 2 ^ 44 := by decide +kernel
/-- `short` halted, with a pool of frames that stand in a row. -/
def halted : State :=
  { short.setCtx 0 { short.ctx 0 with stat := .halted } with pools := [(0, [0x700000, 0x710000, 0x720000])] }
theorem halted_image : (imageOf halted 0 (halted.ctx 0).atCkpt).length = 7280 := by decide +kernel
theorem witness_EventsContexts_save : halted.saveReady 0 = true ∧
    halted.saveFrames (spPart (halted.space 5)) (imageOf halted 0 (halted.ctx 0).atCkpt).length = some [0x700000] ∧
    halted.firstAsleep [0x700000] = none := by
  rw [halted_image]
  decide +kernel

/-! ## Witnesses and tests: launches, statements, the module -/

/-- A device that accepts launches, with partition 0 enabled and a pool. -/
def op : State := { st with mr := [(0x10, 1), (0x110, 1), (0x330, 1)], pools := [(0, [0x400000])], launches := [], ctxs := [] }
/-- A launch with one task for core 0, with no input and the entry 0x40, and its standing. -/
def lt (t : TaskStat) : Launch :=
  { launch with tasks := [BitVec.ofNat 512 (fields [(80, 32), (88, 16), (96, 9), (320, 64)])], tstat := [(0, t)], phaseOn := true, args := [(15, 7)] }
/-- An image of one task and its seal, and the launch record for it at the start of the ring; the image at host address 4096. -/
def cmo : List Byte :=
  leBytes 64 (fields [(0, 0x4F4D43), (32, 1), (48, 1), (80, 1), (96, 64), (128, 64), (160, 144), (192, 8), (224, 152), (256, 3600)]) ++
  leBytes 16 (fields [(0, 3), (16, 64), (32, 1), (64, 80)]) ++ leBytes 64 (fields [(80, 32), (96, 9)]) ++ leBytes 8 0 ++
  leBytes 8 (fields [(0, 0x474953), (32, 1)]) ++ List.replicate 3440 0
/-- See `cmo`. -/
def lr : State := { op with mem := Mem.write (Mem.write [] 0x100000000000 (leBytes 128 (fields [(112, 1), (128, 3600), (192, 4096)]))) 0x100000001000 cmo }
theorem witness_EventsLaunches_record : lr.open' = true ∧ lr.closed = false ∧ (lr.nextRecord).isSome = true ∧
    op.nextRecord = some 0 ∧ refusal op 0 = some 1 := by decide +kernel
/-- The record of `lr`, and the state in which it is taken. -/
def rec1 : BitVec 1024 := BitVec.ofNat 1024 (fields [(112, 1), (128, 3600), (192, 4096)])
/-- See `rec1`. -/
def lr1 : State := lr.setMreg 0x118 (lr.mreg 0x118 + 1)
/-- What the checks of R292 ask of an image before its keys and signatures, and that it has no section and no region. -/
def sound (m : Cmo) : Bool :=
  let b := m.bytes.drop m.sigoff
  !imageBad m && m.sigoff != 0 && leAt b 0 4 == 0x474953 && leAt b 4 2 == 1 && leAt b 6 2 == 0 && leAt b 3445 3 == 0 &&
  m.sections == [] && m.table 11 == []
theorem cmo_sound : lr.nextRecord = some rec1 ∧ recordBad lr1 rec1 = false ∧ depsBad lr1 rec1 = false ∧ fld rec1 64 4 = 0 ∧
    (!bit (lr1.space 1) 0 && !lr1.launches.any (fun q => q.spid == 1)) = true ∧
    (parseImage (lr1.readHost (fld rec1 192 64) (fld rec1 128 32))).any sound = true := by decide +kernel
theorem one_mem : 1 ∈ List.drop 1 (List.range 4096) := by decide +kernel
theorem spid_some {s : State} (h : (!bit (s.space 1) 0 && !s.launches.any (fun q => q.spid == 1)) = true) : ∃ n, s.freeSpid = some n := by
  unfold State.freeSpid
  generalize hl : List.filter (fun n => !bit (s.space n) 0 && !s.launches.any fun q => q.spid == n) (List.drop 1 (List.range 4096)) = l
  have h1 : l ≠ [] := List.ne_nil_of_mem (hl ▸ List.mem_filter.2 ⟨one_mem, h⟩)
  exact ⟨_, (if_neg h1).trans (List.getElem?_eq_getElem (Nat.mod_lt _ (List.length_pos_iff.2 h1)))⟩
theorem space_lr1 (n : Nat) : ∃ u, newSpace lr1 0 n = .ok u := ⟨_, rfl⟩
theorem awake_lr1 (n : Nat) : (lr1.firstAsleep [lr1.spacePlace n]).or (lr1.kernelAsleep []) = none := by
  have h : lr1.asleep (lr1.spacePlace n) = false := by
    rw [State.asleep, show lr1.selfRef = 0#8 from rfl, BitVec.getLsbD_zero, Bool.and_false]
  rw [State.kernelAsleep, if_pos (show lr1.selfRef = 0 from rfl), State.firstAsleep, List.find?_singleton, h]
  rfl
theorem refusal_none {s : State} {r : BitVec 1024} {m : Cmo} (h0 : recordBad s r = false)
    (h1 : parseImage (s.readHost (fld r 192 64) (fld r 128 32)) = some m) (h2 : imageBad m = false) (h3 : sealBad m = false)
    (h4 : depsBad s r = false) : refusal s r = none := by simp [refusal, h0, h1, h2, h3, h4]
theorem admit_ok {s u : State} {r : BitVec 1024} {m : Cmo} {n : Nat} (h1 : s.freeSpid = some n) (h2 : newSpace s (fld r 64 4) n = .ok u)
    (h3 : m.sections = []) (h4 : m.table 11 = []) (h7 : (s.firstAsleep [s.spacePlace n]).or (s.kernelAsleep []) = none) :
    ∃ t, admitLaunch s r m = .done t := by
  have h5 : (mapSections u m n m.sections).bind (fun t => mapStorage t n []) = .ok u := by
    rw [h3]; rfl
  unfold admitLaunch
  extract_lets part id regions
  have h6 : regions = [] := by simp only [regions, h4, List.map_nil]
  clear_value regions
  subst h6
  rw [h1]
  dsimp only
  rw [h7]
  dsimp only
  rw [h2]
  dsimp only
  rw [h5]
  exact ⟨_, rfl⟩
theorem seal_good {m : Cmo} (hk : ∀ a b, Config.kernelHolds a b = true) (he : ∀ a b c, Config.edVerify a b c = true)
    (hm : ∀ a b c, Config.mlVerify a b c = true) (h : sound m = true) :
    imageBad m = false ∧ sealBad m = false ∧ m.sections = [] ∧ m.table 11 = [] := by
  simp only [sound, Bool.and_eq_true, Bool.not_eq_true', bne_iff_ne, beq_iff_eq] at h
  obtain ⟨⟨⟨⟨⟨⟨⟨h1, h2⟩, h3⟩, h4⟩, h5⟩, h6⟩, h7⟩, h8⟩ := h
  exact ⟨h1, by simp [sealBad, hk, he, hm, h2, h3, h4, h5, h6], h7, h8⟩
theorem parse_some {o : Option Cmo} (h : o.any sound = true) : ∃ m, o = some m ∧ sound m = true := by
  cases o with
  | none => cases h
  | some m => exact ⟨m, rfl, h⟩
/-- The record is accepted, whatever space the kernel picks for it, where its keys are held and its signatures verify. -/
theorem witness_EventsLaunches_accept (hk : ∀ a b, Config.kernelHolds a b = true) (he : ∀ a b c, Config.edVerify a b c = true)
    (hm : ∀ a b c, Config.mlVerify a b c = true) : ∃ m t, refusal lr1 rec1 = none ∧
      parseImage (lr1.readHost (fld rec1 192 64) (fld rec1 128 32)) = some m ∧ admitLaunch lr1 rec1 m = .done t := by
  obtain ⟨-, hr, hd, hp0, h5, hp⟩ := cmo_sound
  obtain ⟨m, hi, hs⟩ := parse_some hp
  obtain ⟨h1, h2, h3, h4⟩ := seal_good hk he hm hs
  obtain ⟨n, hn⟩ := spid_some h5
  obtain ⟨u, hu⟩ := space_lr1 n
  obtain ⟨t, ht⟩ := admit_ok (r := rec1) hn (hp0 ▸ hu) h3 h4 (awake_lr1 n)
  exact ⟨m, t, refusal_none hr hi h1 h2 hd, hi, ht⟩
/-- `lr1` with its frame tag table in a sleeping stack, and with an empty pool. -/
def asleep1 : State := { lr1 with selfRef := 0xFF, mr := NMap.put lr1.mr 0x360 0 }
theorem asleep1_table (n : Nat) : ∃ a, (asleep1.firstAsleep [asleep1.spacePlace n]).or (asleep1.kernelAsleep []) = some a := by
  have h : asleep1.kernelAsleep [] = some 0 := by decide +kernel
  rw [h]
  exact ⟨_, Option.or_some⟩
/-- See `asleep1`. -/
def poor1 : State := { lr1 with pools := [] }
theorem poor1_space (n : Nat) : ∃ t, newSpace poor1 0 n = .error (.spent t) := by
  have h : (match needFrame poor1 0 [] with | .error (.spent _) => true | _ => false) = true := by decide +kernel
  unfold newSpace
  split at h
  · rename_i t ht
    exact ⟨t, by rw [ht]; rfl⟩
  · cases h
theorem poor1_awake (n : Nat) : (poor1.firstAsleep [poor1.spacePlace n]).or (poor1.kernelAsleep []) = none := awake_lr1 n
/-- A record that waits, and one that is refused for want of a frame. -/
theorem witness_EventsLaunches_waits : ∀ m : Cmo,
    admitLaunch asleep1 rec1 m = .wait ∧ ∃ t, admitLaunch poor1 rec1 m = .refused 0x13 t := by
  intro m
  have hf : fld rec1 64 4 = 0 := cmo_sound.2.2.2.1
  obtain ⟨n, hn⟩ := spid_some (s := asleep1) (by decide +kernel)
  obtain ⟨k, hk⟩ := spid_some (s := poor1) (by decide +kernel)
  obtain ⟨a, ha⟩ := asleep1_table n
  constructor
  · unfold admitLaunch
    extract_lets
    rw [hn]
    dsimp only
    rw [ha]
  · obtain ⟨t, ht⟩ := poor1_space k
    unfold admitLaunch
    extract_lets part
    have hp : part = 0 := hf
    rw [hk]
    dsimp only
    rw [poor1_awake, hp]
    dsimp only
    rw [ht]
    exact ⟨t, rfl⟩
/-- `lt` with a second task, in phase 3 and of variant 1, after the first has retired; with no second task; aborted; held. -/
def ends (n stage : Nat) : State :=
  { op with launches := [{ lt .retired with tasks := (lt .retired).tasks ++ List.replicate n (BitVec.ofNat 512 (fields [(48, 3), (64, 1)])), stage := stage }] }
/-- Context 0 in its staging with `n` of its one input copied: 64 bytes, the last of page 1, for tile register 1. -/
def stg (n : Nat) : State :=
  { ptx { ctx with stat := .staging, staged := n } with
    launches := [{ lt (.bound 0) with tasks := [BitVec.ofNat 512 (fields [(80, 32), (88, 16), (96, 9), (224, 1), (320, 64)])],
                                      inputs := [BitVec.ofNat 256 (fields [(0, 1), (8, 3), (32, 64), (64, 0x1FFC0), (128, 0xFFFFFFFF)])] }] }
theorem witness_EventsLaunches_life :
    ((ends 1 2).launchOf 1).any (fun l => l.stage == 2 && l.phaseDone && l.phaseFrom (l.phase + 1) == some 3 && l.inPhase 3 == [1] &&
      l.variantOf 1 == 1 && l.choose 3 false == 0) = true ∧
    ((ends 0 2).launchOf 1).map (fun l => (l.phaseDone, l.phaseFrom (l.phase + 1))) = some (true, none) ∧
    (let s := { st with launches := [lt (.ended 0)] }
     (s.launchOf 1).map (fun l => l.stat 0) = some (.ended 0) ∧ s.mayRetire 1 0 0 = true) := by decide +kernel
theorem witness_EventsLaunches_ends :
    ((ends 0 3).launchOf 1).map (fun l => l.stage) = some 3 ∧ ((ends 0 4).launchOf 1).map (fun l => l.stage) = some 4 ∧
    (ends 0 3).ringsFree = true ∧ (ends 0 3).spaceAway launch.spid = false ∧ (ends 0 3).selfRef = 0 ∧ ((ends 0 5).launchOf 1).map (fun l => l.stage) = some 5 ∧
    (ends 0 5).heldBack 0 = false ∧ (ends 0 5).spaceAsleep launch.spid = none ∧
    ({ ends 0 5 with selfRef := 0xFF } : State).spaceAsleep launch.spid = some 80 ∧
    ({ st with quiescing := [5] } : State).spaceAway 5 = false ∧ ((ends 0 3).launchOf 1).map (fun l => l.stmt) = some 0 ∧
    (let full := { ends 0 3 with mr := (ends 0 3).mr ++ [(0x138, 2 ^ 32)] }
     full.completionRoom = false) ∧
    (let s := { ends 0 3 with launches := (ends 0 3).launches.map (fun (l : Launch) => { l with stmt := 1 }) }
     (s.launchOf 1).map (fun l => l.stmt) = some 1 ∧ s.heldBack 1 = false ∧ s.completionRoom = true ∧
     ({ s with heldOut := [(true, leBytes 8 0 ++ leBytes 8 1)] } : State).heldBack 1 = true) ∧
    (let s := ends 0 1
     (s.launches.find? (fun m => m.htag == launch.htag && m.stage == 1)).map (fun l => (l.id, l.deps.any l.depWaits, l.fw.isNone)) =
       some (1, false, true) ∧ s.open' = true) ∧
    (({ op with launches := [lt .waiting] } : State).candidate 0).map (fun e => (e.1.id, e.2)) = some (1, 0, 0) := by decide +kernel
theorem witness_EventsLaunches_staging :
    ((stg 0).ctx 0).stat = .staging ∧ ((stg 0).ctx 0).task = some ⟨1, 0⟩ ∧ (stg 0).vacated 0 = true ∧
    ((stg 0).launchOf 1).map (fun l => (l.stage, (l.inputsOf 0).length)) = some (2, 1) ∧
    (match (stg 0).launches with
      | l :: _ => (match (l.inputsOf 0)[((stg 0).ctx 0).staged]? with
        | some e => l.produced (fld e 128 32) && fld e 32 32 % 64 == 0 && (pagesOf (fld e 64 64) (fld e 32 32)).all (fun p =>
            (stg 0).reach 0 5 p Need.counted == .at (ptePa 0x20001F + p % 65536) && !(stg 0).asleep (ptePa 0x20001F + p % 65536)) &&
          (List.range (fld e 32 32 / 64)).all (fun i => !marksHit (stg 0).marks ((stg 0).paOf 0 5 (fld e 64 64 + 64 * i)) 64) &&
          !(stg 0).boundHit 0 5 (fld e 64 64) (fld e 32 32)
        | none => false)
      | [] => false) = true ∧ ((stg 1).ctx 0).staged = 1 ∧
    (let s := { fetch 0 with cores := [(0, { (fetch 0).core 0 with run := 1024, width := 0, ready := [1] })] }
     1024 ≤ (s.core 0).run ∧ [1, 2, 3].find? (fun j => (s.core 0).ready.contains (((s.core 0).width + j) % 4)) = some 1) ∧
    5 ∈ ({ st with quiescing := [5] } : State).quiescing ∧ fld (0xFFF : Word) 0 12 ≠ 0 ∧ fld (0x1000 : Word) 0 12 = 0 := by decide +kernel
theorem test_launch : (match exec (.taskStart 0) (stg 1) with | .next t => (t.ctx 0).pc.toNat == 64 && (t.ctx 0).xreg 16 == 7 | _ => false) = true ∧
    (match exec (.phaseBoundary 1) (ends 1 2) with | .next t => (t.launchOf 1).any (fun l => l.phase == 3 && l.stat 1 == .skipped) | _ => false) = true := by
  decide +kernel
/-- A running device that has emitted one statement, has every ring of the host in place, and a statement of another device at
host address 0 that names region 4,095. -/
def sy : State :=
  { op with stmts := [(1, [(7, 2)], [])], stmtSeq := 1, mr := op.mr ++ [(0x200, 0x100000000000), (0x188, 2), (0x180, 65536)],
            mem := Mem.write [] 0x100000000000 (leBytes 152 (fields [(48, 3), (160, 1), (1024, 0xFFFF), (1088, 9)])) }
theorem witness_EventsStatements :
    sy.stmts.find? (fun e => e.1 == (1 : Word).toNat) = some (1, [(7, 2)], []) ∧ sy.committed < (1 : Word).toNat ∧ sy.heldBack (1 : Word).toNat = false ∧
    sy.stmts.find? (fun e => e.1 == (2 : Word).toNat) = none ∧ sy.open' = true ∧ ({ sy with mr := [(0x10, 4)] } : State).outOfService = true ∧
    (0xFFFFFFFF1D0 : Word).toNat + 3632 ≤ 2 ^ 44 ∧ sy.heldOut = [] ∧
    (sy.mreg 0x198 - sy.mreg 0x190).toNat < 2 ^ min (sy.mreg 0x188).toNat 16 ∧
    ({ sy with bootStep := 7 } : State).bootStep = 7 ∧ sy.outOfService = false ∧ sy.launches = [] := by decide +kernel
theorem sy_import : (sy.stmtAt 0).length = 3528 ∧ leAt (sy.stmtAt 0) 32 32 = 0 ∧ leAt (sy.stmtAt 0) 20 4 ≤ 4096 ∧ leAt (sy.stmtAt 0) 6 1 = 3 ∧
    stmtRegions (sy.stmtAt 0) = [(4095, 9, 0)] ∧ ([(4095, 9, 0)].filter (fun f => f.1 == 4095)).length = 1 ∧ (NMap.get 0 sy.admitted 4095 ≤ 9 ∧ NMap.get 0 sy.beat 4095 ≤ 0 ∧ 4095 ∉ sy.imported) := by
  decide +kernel
/-- The statement is imported where it is another device's, its device is approved and its signatures verify; it raises the counter. -/
theorem witness_EventsStatements_import (hd : Config.devid ≠ 0) (ha : ∀ d, Config.approvedDevice d = true)
    (he : ∀ a b c, Config.edVerify a b c = true) (hm : ∀ a b c, Config.mlVerify a b c = true) :
      BitVec.ofNat 256 (leAt (sy.stmtAt 0) 32 32) ≠ Config.devid ∧
      Config.approvedDevice (BitVec.ofNat 256 (leAt (sy.stmtAt 0) 32 32)) = true ∧
      stmtGood (sy.stmtAt 0) = true := by
  refine ⟨by rw [sy_import.2.1]; exact hd.symm, ha _, ?_⟩
  simp only [stmtGood, he, hm, Bool.and_true, decide_eq_true_eq]
  exact sy_import.2.2.1
theorem witness_EventsModule :
    1535 < 1536 ∧ 1 ≤ (7 : BitVec 8).toNat ∧ (7 : BitVec 8).toNat ≤ 7 ∧ inHbm (0x7FFFFFFFFF : Word).toNat = true ∧
    (0x1FFFFF : Word).toNat < 2 ^ 21 ∧ (6291455 : Word).toNat < 6291456 ∧ (31 : Word).toNat < 32 ∧ (st.ctx 0).task = some ⟨1, 0⟩ ∧ st.metBy 0 = 1 ∧ bit (31 : Word) 63 = false ∧
    saved.saved.find? (fun v => v.c == 0 && v.live && v.addr == fld (word [(0, 0x600000), (63, 1)]) 0 63) = some sav ∧
    (st.launchOf (st.metBy 0)).isSome = true ∧ (st.launches.find? (fun l => l.spid == 5)).map (fun l => l.id) = some 1 ∧ (st.ctx 1535).task = none ∧
    sy.asleep 0x100000000000 = false ∧ (sy.mreg 0x200).toNat ≠ 0 ∧ (sy.mreg 0x210).toNat < 2 ^ min (sy.mreg 0x208).toNat 16 ∧
    (st.mreg 0x200).toNat = 0 ∧ ({ sy with mr := [(0x200, 8), (0x210, 1)] } : State).mreg 0x210 = 1 ∧
    sy.deadEdges.contains 0b0111 = false ∧
    ({ st with selfRef := 0x81 } : State).selfRef.getLsbD 7 = true ∧ NMap.get [] st.srHeld 7 = [] := by decide +kernel
theorem witness_EventsModule_wharf :
    (let s := (stx (due (.wharf 0x312 4096 .absent false))).setWharf 0 { st.wharf 0 with log := [wop 0x312 7] }
     wop 0x312 7 ∈ (s.wharf 0).log ∧ s.owed (wop 0x312 7) = true ∧ (wop 0x312 7).id = fld (word [(0, 4), (63, 1)]) 0 63 ∧
     bit (word [(0, 4), (63, 1)]) 63 = true) ∧
    (let w := recWin launch.info 0
     w.1 ≤ 8184 ∧ 8184 < w.1 + w.2 ∧ ¬ 8192 < w.1 + w.2) ∧ launch ∈ st.launches ∧ bit (8184 : Word) 63 = false := by decide +kernel
/-- The last sector of a window in the overflow area, and the next one. -/
theorem witness_EventsModule_overflow :
    (let l := { launch with info := BitVec.ofNat 1024 (fields [(256, 0x800), (272, 1)]) }
     let w := recWin l.info 0
     let a := word [(0, 0x800FFF), (63, 1)]
     bit a 63 = true ∧ 0x800000 ≤ fld a 0 26 ∧ fld a 26 2 = 0 ∧ w.1 ≤ fld a 0 26 / 64 * 64 ∧ fld a 0 26 / 64 * 64 < w.1 + w.2 ∧
     ¬ 0x801000 < w.1 + w.2 ∧ overflowAt 1 0 a = some (0, 0x800FFF)) ∧
    fld (8184 : Word) 0 26 < 0x800000 ∧ sy.deadEdges.contains 0b0001 = false ∧ sy.launches = [] := by decide +kernel
theorem test_overflow : (match exec (.errorDetected 8 true 0 0x800FFF) (st.putVar 0 0x800FC0 7) with
      | .next t => t.var 0 0x800FC0 | _ => 1) = 0 := by decide +kernel
/-- The hottest die at 115.1 and at 115.0 degrees. -/
theorem witness_EventsModule_heat : 1150 < fld (word [(48, 1151)]) (16 * 3) 16 ∧ ∀ d, d < 4 → ¬ 1150 < fld (word [(48, 1150)]) (16 * d) 16 := by
  decide +kernel
theorem test_module : (match exec (.errorDetected 4 true 3 31) st with
      | .next t => ((t.core 0).plane 31).taint && !((t.core 0).plane 30).taint | _ => false) = true ∧
    (match exec (.overTemperature 1151 (0, 0)) st with | .next t => t.powered | _ => true) = false := by decide +kernel
theorem test_event : (match exec (.machineCheck 423) sy with
    | .next t => Mem.readLE t.mem 0x100000000000 8 == 0x0C + 256 + 65536 * 423 && t.msix == [2] | _ => false) = true := by decide +kernel

end Sys2Proof.Tests
end

section
/-! SUPPORT. Short immediates (R30): the sign extension of R57 as a library operation, what the source codes from 0x200 up
read as, and the broadcast of an S value (R10). -/

namespace Sys2Proof.Machine

/-- The two shifts of `sext` are the library's sign extension of the low `k + 1` bits, so its lemmas about `toInt` apply. -/
theorem sext_eq_signExtend (w : Word) {k : Nat} (h : k < 64) : sext w k = (w.setWidth (k + 1)).signExtend 64 := by
  ext i hi
  simp only [sext, BitVec.getElem_sshiftRight, BitVec.getElem_signExtend, BitVec.getElem_shiftLeft, BitVec.getElem_setWidth,
    BitVec.msb_shiftLeft, BitVec.msb_setWidth]
  by_cases hik : i < k + 1
  · have hlow : 63 - k + i < 64 := by omega
    simp [hik, hlow, BitVec.getLsbD_eq_getElem hi]
  · have hhigh : ¬ 63 - k + i < 64 := by omega
    have hshift : 63 - k < 64 := by omega
    have hsign : 63 - (63 - k) = k := by omega
    simp [hik, hhigh, BitVec.getMsbD_eq_getLsbD, hshift, hsign]

/-- `sext` keeps the signed value of the field it extends (R57). -/
theorem toInt_sext (w : Word) {k : Nat} (h : k < 64) : (sext w k).toInt = (w.setWidth (k + 1)).toInt := by
  rw [sext_eq_signExtend w h, BitVec.toInt_signExtend_of_le (by omega)]

/-- The read of a code from 0x200 up takes no part of the state (R30). -/
theorem readSrc_of_shortImm (s : State) {src : BitVec 10} (h : 0x200 ≤ src.toNat) :
    s.readSrc src = .s (sext (src.setWidth 64) 8) := by
  have hn (c : Nat) (hc : c ≤ 0x200) : ¬ src.toNat < c := by omega
  simp [State.readSrc, hn, BitVec.ofNat_toNat]

/-- The width that R10 is applied with; it stands at S whatever the result ports hold (R29). -/
theorem srcWd_of_shortImm (x : Ctx) {src : BitVec 10} (h : 0x200 ≤ src.toNat) : x.srcWd src = .s := by
  have hn (c : Nat) (hc : c ≤ 0x200) : ¬ src.toNat < c := by omega
  simp [Ctx.srcWd, hn]

/-- The broadcast of R10, tagged or not. -/
theorem lane_toV_s (w : Word) (unt : Bool) {k : Nat} (h : k < 1024) :
    lane ((SrcVal.s w).toV unt).lanes k = w.setWidth 32 := by
  simp [SrcVal.toV, bcast, h]

/-- Settles O12: the value of a short immediate is `sext` at bit 8 of its own code, whose signed value is that of the low
nine bits and so lies in the range of nine-bit two's complement. -/
theorem shortImmediate : Obligations.ShortImmediate := by
  intro s src h
  have hread := readSrc_of_shortImm s h
  have hval : (sext (src.setWidth 64) 8).toInt = (src.setWidth 9).toInt := by
    rw [toInt_sext _ (by decide), BitVec.setWidth_setWidth_of_le _ (by decide)]
  refine ⟨_, hread, hval, ?_, ?_, srcWd_of_shortImm _ h, fun k unt hk => ?_⟩
  · simpa [hval] using BitVec.le_toInt (src.setWidth 9)
  · have := BitVec.toInt_lt (x := src.setWidth 9)
    omega
  · rw [hread, lane_toV_s _ _ hk]

end Sys2Proof.Machine
end

section
/-! SUPPORT. Control flow of the ctl unit (R64, R66, R67, R68): what its triggers answer, and what a branch, a loop's start and a
loop's end do to the loop levels of the issuing context. -/

namespace Sys2Proof.Machine

/-! ## The issuing context after an update -/

@[simp] theorem cx_setCx (s : State) (x : Ctx) : (s.setCx x).cx = x := by simp [State.cx, State.setCx]

/-- A scalar result in flight is all that its landing adds to the issuing context (R16). -/
theorem cx_landS (s : State) (lat dst : Nat) (w : Word) : (s.landS lat dst w).cx =
    { s.cx with snap := s.cx.snap ++ [⟨s.nextId, s.cx.lclk + BitVec.ofNat 64 lat, .result dst (.s w)⟩] } := by
  have h : (s.landS lat dst w).cx =
      (s.setCx { s.cx with snap := s.cx.snap ++ [⟨s.nextId, s.cx.lclk + BitVec.ofNat 64 lat, .result dst (.s w)⟩] }).cx := rfl
  rw [h, cx_setCx]

/-! ## What a read leaves of the loop levels and of the program counter -/

@[simp] theorem afterRead_lc (s : State) (src : BitVec 10) : (s.afterRead src).cx.lc = s.cx.lc := by
  obtain ⟨f, h⟩ := afterRead_cx s src; rw [h]
@[simp] theorem afterRead_ldrain (s : State) (src : BitVec 10) : (s.afterRead src).cx.ldrain = s.cx.ldrain := by
  obtain ⟨f, h⟩ := afterRead_cx s src; rw [h]
@[simp] theorem afterRead_sp (s : State) (src : BitVec 10) : (s.afterRead src).cx.sp = s.cx.sp := by
  obtain ⟨f, h⟩ := afterRead_cx s src; rw [h]
@[simp] theorem afterRead_pc (s : State) (src : BitVec 10) : (s.afterRead src).cx.pc = s.cx.pc := by
  obtain ⟨f, h⟩ := afterRead_cx s src; rw [h]
@[simp] theorem afterRead_slot (s : State) (src : BitVec 10) : (s.afterRead src).cx.slot = s.cx.slot := by
  obtain ⟨f, h⟩ := afterRead_cx s src; rw [h]
@[simp] theorem afterRead_loopCount (s : State) (src : BitVec 10) (l : Nat) : (s.afterRead src).cx.loopCount l = s.cx.loopCount l := by
  simp [Ctx.loopCount]
@[simp] theorem afterRead_loopStart (s : State) (src : BitVec 10) (l : Nat) : (s.afterRead src).cx.loopStart l = s.cx.loopStart l := by
  obtain ⟨f, h⟩ := afterRead_cx s src; rw [h]; rfl
@[simp] theorem afterRead_loopLen (s : State) (src : BitVec 10) (l : Nat) : (s.afterRead src).cx.loopLen l = s.cx.loopLen l := by
  obtain ⟨f, h⟩ := afterRead_cx s src; rw [h]; rfl

/-! ## Branch targets and the loops a branch leaves (R64, R68) -/

@[simp] theorem goto_pc (x : Ctx) (p : Word) : (x.goto p).pc = p := rfl
@[simp] theorem goto_slot (x : Ctx) (p : Word) : (x.goto p).slot = 0 := rfl
@[simp] theorem goto_sp (x : Ctx) (p : Word) : (x.goto p).sp = x.sp := rfl
@[simp] theorem goto_lc (x : Ctx) (p : Word) : (x.goto p).lc = x.lc := rfl
@[simp] theorem goto_snap (x : Ctx) (p : Word) : (x.goto p).snap = x.snap := rfl
@[simp] theorem goto_lclk (x : Ctx) (p : Word) : (x.goto p).lclk = x.lclk := rfl
@[simp] theorem goto_ldrain (x : Ctx) (p : Word) : (x.goto p).ldrain = x.ldrain := rfl
@[simp] theorem goto_loopCount (x : Ctx) (p : Word) (l : Nat) : (x.goto p).loopCount l = x.loopCount l := rfl
@[simp] theorem goto_loopStart (x : Ctx) (p : Word) (l : Nat) : (x.goto p).loopStart l = x.loopStart l := rfl
@[simp] theorem goto_loopLen (x : Ctx) (p : Word) (l : Nat) : (x.goto p).loopLen l = x.loopLen l := rfl

/-- The shift of a relative target is the multiplication of R64. -/
theorem relTarget_eq (s : State) : s.relTarget = s.iss.bundle + 32 * s.cx.aS 14 := by
  have h : s.cx.aS 14 <<< 5 = 32 * s.cx.aS 14 := by rw [BitVec.shiftLeft_eq_mul_twoPow, BitVec.mul_comm]; rfl
  rw [State.relTarget, h]

@[simp] theorem afterRead_relTarget (s : State) (src : BitVec 10) : (s.afterRead src).relTarget = s.relTarget := by
  simp [State.relTarget]

/-- Clearing, among the keys of a list, those that fail a test: such a key reads as cleared, any other as before. -/
theorem get_foldl_clear {α : Type} [DecidableEq α] (z : α) (keep : Nat → Prop) [DecidablePred keep] (ls : List Nat) (m : NMap α)
    (k : Nat) :
    NMap.get z (ls.foldl (fun m l => if keep l then m else if NMap.get z m l = z then m else NMap.put m l z) m) k =
      if k ∈ ls ∧ ¬ keep k then z else NMap.get z m k := by
  induction ls generalizing m with
  | nil => simp
  | cons l ls ih =>
    rw [List.foldl_cons, ih]
    by_cases hkeep : keep l
    · by_cases hk : k = l
      · simp [hk, hkeep]
      · simp [hk, hkeep]
    · by_cases hk : k = l
      · by_cases hz : NMap.get z m l = z <;> simp [hk, hkeep, hz]
      · by_cases hz : NMap.get z m l = z <;> simp [hk, hkeep, hz]

/-- A branch leaves a level on as long as its body holds the target (R68). -/
theorem leaveLoops_loopCount (x : Ctx) (p : Word) {l : Nat} (h : l < 3) : (x.leaveLoops p).loopCount l =
    if (p - x.loopStart l).toNat ≤ 32 * (x.loopLen l - 1) then x.loopCount l else 0 := by
  have hget : (x.leaveLoops p).loopCount l = _ :=
    get_foldl_clear 0 (fun l => (p - x.loopStart l).toNat ≤ 32 * (x.loopLen l - 1)) (List.range 3) x.lc l
  rw [hget]
  by_cases hin : (p - x.loopStart l).toNat ≤ 32 * (x.loopLen l - 1)
  · rw [if_pos hin, if_neg (fun hout => hout.2 hin)]
    rfl
  · rw [if_neg hin, if_pos ⟨List.mem_range.2 h, hin⟩]

/-- A branch of the issuing context: the next group begins at `p`, and the levels whose bodies do not hold it end (R64, R68). -/
def State.branchTo (s : State) (p : Word) : State := s.setCx ((s.cx.leaveLoops p).goto p)
/-- A call of the issuing context: the next group begins at `p`, and the link is on its way to ctl.q (R64). -/
def State.callTo (s : State) (p : Word) : State := (s.setCx (s.cx.goto p)).landS 1 0x09C s.iss.after

theorem branchTo_pc (s : State) (p : Word) : (s.branchTo p).cx.pc = p := by rw [State.branchTo, cx_setCx, goto_pc]
theorem branchTo_slot (s : State) (p : Word) : (s.branchTo p).cx.slot = 0 := by rw [State.branchTo, cx_setCx, goto_slot]
theorem branchTo_loopCount (s : State) (src : BitVec 10) (p : Word) {l : Nat} (hl : l < 3) :
    ((s.afterRead src).branchTo p).cx.loopCount l =
      if (p - s.cx.loopStart l).toNat ≤ 32 * (s.cx.loopLen l - 1) then s.cx.loopCount l else 0 := by
  rw [State.branchTo, cx_setCx, goto_loopCount, leaveLoops_loopCount _ _ hl, afterRead_loopStart, afterRead_loopLen,
    afterRead_loopCount]

theorem callTo_pc (s : State) (p : Word) : (s.callTo p).cx.pc = p := by rw [State.callTo, cx_landS, cx_setCx, goto_pc]
theorem callTo_slot (s : State) (p : Word) : (s.callTo p).cx.slot = 0 := by rw [State.callTo, cx_landS, cx_setCx, goto_slot]
/-- A call leaves every loop level unchanged (R68). -/
theorem callTo_lc (s : State) (src : BitVec 10) (p : Word) : ((s.afterRead src).callTo p).cx.lc = s.cx.lc := by
  rw [State.callTo, cx_landS, cx_setCx, goto_lc, afterRead_lc]
theorem callTo_snap (s : State) (src : BitVec 10) (p : Word) : ((s.afterRead src).callTo p).cx.snap =
    (s.afterRead src).cx.snap ++ [⟨(s.afterRead src).nextId, (s.afterRead src).cx.lclk + 1, .result 0x09C (.s s.iss.after)⟩] := by
  rw [State.callTo, cx_landS, cx_setCx, goto_snap, goto_lclk, afterRead_iss]
  rfl

/-! ## Loop levels (R66, R67) -/

/-- Loop level k opened at `start` with the trip count and the control word of the ctl latches (R66). -/
def Ctx.openLoop (x : Ctx) (k : Nat) (start : Word) : Ctx :=
  { x with
    lstart := NMap.put x.lstart k start
    llen := NMap.put x.llen k (fld (x.bS 14) 0 8)
    ldrain := NMap.put x.ldrain k (BitVec.ofNat 8 (fld (x.bS 14) 8 8))
    lc := NMap.put x.lc k ((x.aS 14).setWidth 32)
    sp := if bit (x.bS 14) 16 then 1 else x.sp }

theorem openLoop_loopCount (x : Ctx) (k : Nat) (start : Word) (j : Nat) :
    (x.openLoop k start).loopCount j = if j = k then (x.aS 14).setWidth 32 else x.loopCount j := NMap.get_put ..
theorem openLoop_sp (x : Ctx) (k : Nat) (start : Word) : (x.openLoop k start).sp = if bit (x.bS 14) 16 then 1 else x.sp := rfl
theorem openLoop_loopStart (x : Ctx) (k : Nat) (start : Word) : (x.openLoop k start).loopStart k = start := by
  simp [Ctx.loopStart, Ctx.openLoop]
/-- LEN is the low byte of the control word, with 0 read as 256. -/
theorem openLoop_loopLen (x : Ctx) (k : Nat) (start : Word) : (x.openLoop k start).loopLen k =
    if (x.bS 14).toNat % 256 = 0 then 256 else (x.bS 14).toNat % 256 := by
  simp [Ctx.loopLen, Ctx.openLoop, fld]
/-- DRAIN is the second byte of the control word. -/
theorem openLoop_drain (x : Ctx) (k : Nat) (start : Word) :
    (NMap.get 0 (x.openLoop k start).ldrain k).toNat = (x.bS 14).toNat / 256 % 256 := by
  simp [Ctx.openLoop, fld, Nat.shiftRight_eq_div_pow]

/-- One iteration of loop level k closed, before the program counter moves (R67): an inactive level stays inactive, and S rotates
all the same. -/
def Ctx.closeLoop (x : Ctx) (k : Nat) : Ctx :=
  if x.loopCount k = 0 then { x with sp := x.sp <<< 1 }
  else { x with
    sp := (x.sp <<< 1) ||| (if (NMap.get 0 x.ldrain k).toNat < (x.loopCount k - 1).toNat then 1 else 0)
    lc := NMap.put x.lc k (x.loopCount k - 1) }

/-- A counter that is not zero falls by one without wrapping. -/
theorem toNat_pred_of_ne_zero {n : BitVec 32} (h : n ≠ 0) : (n - 1).toNat = n.toNat - 1 := by bv_omega
/-- The last iteration is the one that a counter of 1 closes. -/
theorem pred_eq_zero_iff_le_one {n : BitVec 32} (h : n ≠ 0) : n - 1 = 0 ↔ n.toNat ≤ 1 := by bv_omega

theorem closeLoop_loopCount (x : Ctx) (k j : Nat) : (x.closeLoop k).loopCount j =
    if j = k then (if x.loopCount k = 0 then 0 else x.loopCount k - 1) else x.loopCount j := by
  unfold Ctx.closeLoop
  by_cases hn : x.loopCount k = 0
  · rw [if_pos hn, if_pos hn]
    by_cases hj : j = k
    · rw [if_pos hj, hj]
      exact hn
    · rw [if_neg hj]
      rfl
  · rw [if_neg hn, if_neg hn]
    exact NMap.get_put ..

/-- The bit that enters S: set while more iterations than DRAIN are left. -/
theorem closeLoop_sp (x : Ctx) (k : Nat) : (x.closeLoop k).sp = (x.sp <<< 1) |||
    (if x.loopCount k ≠ 0 ∧ (NMap.get 0 x.ldrain k).toNat + 1 < (x.loopCount k).toNat then 1 else 0) := by
  unfold Ctx.closeLoop
  by_cases hn : x.loopCount k = 0
  · simp [hn]
  · have hmore : (NMap.get 0 x.ldrain k).toNat < (x.loopCount k - 1).toNat ↔
        (NMap.get 0 x.ldrain k).toNat + 1 < (x.loopCount k).toNat := by
      rw [toNat_pred_of_ne_zero hn]; omega
    rw [if_neg hn]
    simp only [hmore, ne_eq, hn, not_false_eq_true, true_and]

theorem closeLoop_pc (x : Ctx) (k : Nat) : (x.closeLoop k).pc = x.pc := by unfold Ctx.closeLoop; split <;> rfl
theorem closeLoop_slot (x : Ctx) (k : Nat) : (x.closeLoop k).slot = x.slot := by unfold Ctx.closeLoop; split <;> rfl

/-- The end of loop level k: one iteration closed, and the body starts again while iterations are left (R67). -/
def Ctx.endLoop (x : Ctx) (k : Nat) : Ctx :=
  if (x.loopCount k).toNat ≤ 1 then x.closeLoop k else (x.closeLoop k).goto (x.loopStart k)

theorem endLoop_sp (x : Ctx) (k : Nat) : (x.endLoop k).sp = (x.closeLoop k).sp := by unfold Ctx.endLoop; split <;> rfl
theorem endLoop_loopCount (x : Ctx) (k j : Nat) : (x.endLoop k).loopCount j = (x.closeLoop k).loopCount j := by
  unfold Ctx.endLoop; split <;> rfl
theorem endLoop_next (x : Ctx) (k : Nat) : if (x.loopCount k).toNat ≤ 1 then (x.endLoop k).pc = x.pc ∧ (x.endLoop k).slot = x.slot
    else (x.endLoop k).pc = x.loopStart k ∧ (x.endLoop k).slot = 0 := by
  unfold Ctx.endLoop
  by_cases hlast : (x.loopCount k).toNat ≤ 1
  · rw [if_pos hlast, if_pos hlast]
    exact ⟨closeLoop_pc x k, closeLoop_slot x k⟩
  · rw [if_neg hlast, if_neg hlast]
    exact ⟨rfl, rfl⟩

/-! ## What each trigger answers -/

/-- Checks that pass do not decide. -/
theorem minStop_append_of_none {l : List (Option Stop)} (h : ∀ k ∈ l, k = none) (m : List (Option Stop)) :
    minStop (l ++ m) = minStop m := by
  induction l with
  | nil => rfl
  | cons a t ih =>
    obtain ⟨rfl, ht⟩ := List.forall_mem_cons.1 h
    exact ih ht

/-- The trigger's own check is the only one that fails: the group ends at it. -/
theorem trigger_halt {s : State} {g : BitVec 4} {src : BitVec 10} {k : Stop} {eff : State → State}
    (h : s.mayIssue g src = true) (hf : s.iss.free = false) : trigger s g src [] [some k] eff = .next (s.halt k) := by
  simp only [State.mayIssue, Bool.and_eq_true] at h
  obtain ⟨hg, hsrc⟩ := h
  have hrest : minStop (s.srcOwn src) = none := (minStop_eq_none _).2 (srcReady_own hsrc)
  have hstop : minStop ((s.srcCls src ++ []) ++ if s.guardOn g && !s.iss.free then [some k] ++ s.srcOwn src else []) = some k := by
    rw [List.append_nil, minStop_append_of_none (srcReady_cls hsrc), hg, hf]
    simp [minStop, hrest]
  unfold trigger issue
  rw [hstop]

section
variable {s : State} {g : BitVec 4} {src : BitVec 10} (h : s.mayIssue g src = true)
include h

theorem exec_ctlJmp_next (ha : (s.cx.aS 14).toNat % 32 = 0) :
    exec (.ctlJmp g src) s = .next ((s.afterRead src).branchTo (s.cx.aS 14)) := by
  rw [exec_ctlJmp, execCtlJmp, trigger_next h (by simp) (by simp [ha])]
  rfl

theorem exec_ctlCall_next (ha : (s.cx.aS 14).toNat % 32 = 0) :
    exec (.ctlCall g src) s = .next ((s.afterRead src).callTo (s.cx.aS 14)) := by
  rw [exec_ctlCall, execCtlCall, trigger_next h (by simp) (by simp [ha])]
  rfl

/-- ALIGNMENT: an absolute target that is no multiple of 32 (R64). -/
theorem exec_ctlJmp_misaligned (ha : (s.cx.aS 14).toNat % 32 ≠ 0) (hf : s.iss.free = false) :
    exec (.ctlJmp g src) s = .next (s.halt (s.own 0x0C)) := by
  rw [exec_ctlJmp, execCtlJmp, bne_iff_ne.2 ha, chk_true, trigger_halt h hf]

/-- See `exec_ctlJmp_misaligned`. -/
theorem exec_ctlCall_misaligned (ha : (s.cx.aS 14).toNat % 32 ≠ 0) (hf : s.iss.free = false) :
    exec (.ctlCall g src) s = .next (s.halt (s.own 0x0C)) := by
  rw [exec_ctlCall, execCtlCall, bne_iff_ne.2 ha, chk_true, trigger_halt h hf]

theorem exec_ctlBr_next : exec (.ctlBr g src) s = .next ((s.afterRead src).branchTo (s.iss.bundle + 32 * s.cx.aS 14)) := by
  rw [exec_ctlBr, execCtlBr, trigger_plain h, afterRead_relTarget, relTarget_eq, State.branchTo]

theorem exec_ctlCallr_next : exec (.ctlCallr g src) s = .next ((s.afterRead src).callTo (s.iss.bundle + 32 * s.cx.aS 14)) := by
  rw [exec_ctlCallr, execCtlCallr, trigger_plain h, afterRead_relTarget, relTarget_eq, State.callTo]

/-- A trip count of zero skips the body (R66). -/
theorem exec_ctlLoop_next {l : BitVec 2} (hl : l ≠ 3) :
    let y := (s.afterRead src).cx.openLoop l.toNat s.iss.after
    exec (.ctlLoop g src l) s = .next ((s.afterRead src).setCx (y.goto
      (if (s.cx.aS 14).setWidth 32 = 0#32 then s.iss.after + BitVec.ofNat 64 (32 * y.loopLen l.toNat) else s.iss.after))) := by
  have hcode : (l == 3) = false := beq_false_of_ne hl
  rw [exec_ctlLoop, execCtlLoop, hcode, chk_false, trigger_next h (by simp) (by simp)]
  simp only [Ctx.openLoop, afterRead_iss, afterRead_aS]
  rfl

theorem exec_ctlLoopend_next {l : BitVec 2} (hl : l ≠ 3) :
    exec (.ctlLoopend g src l) s = .next ((s.afterRead src).setCx ((s.afterRead src).cx.endLoop l.toNat)) := by
  have hcode : (l == 3) = false := beq_false_of_ne hl
  rw [exec_ctlLoopend, execCtlLoopend, hcode, chk_false, trigger_next h (by simp) (by simp)]
  by_cases hn : (s.afterRead src).cx.loopCount l.toNat = 0
  · simp [Ctx.endLoop, Ctx.closeLoop, hn]
  · simp only [Ctx.endLoop, Ctx.closeLoop, if_neg hn, pred_eq_zero_iff_le_one hn]

end

/-- Settles O42: each trigger answers as its equation above says; what remains is read off field by field, a branch and a call once
for the absolute and the relative target. -/
theorem branchesAndLoops : Obligations.BranchesAndLoops := by
  intro s g src h a b t rel goes leaves links
  have hbranch (p : Word) : goes (t.branchTo p) p ∧ leaves (t.branchTo p) p :=
    ⟨⟨branchTo_pc t p, branchTo_slot t p⟩, fun _ hl => branchTo_loopCount s src p hl⟩
  have hcall (p : Word) : goes (t.callTo p) p ∧ links (t.callTo p) :=
    ⟨⟨callTo_pc t p, callTo_slot t p⟩, callTo_snap s src p, callTo_lc s src p⟩
  refine ⟨fun ha => ⟨⟨_, exec_ctlJmp_next h ha, hbranch a⟩, _, exec_ctlCall_next h ha, hcall a⟩,
    fun ha hf => ⟨exec_ctlJmp_misaligned h ha hf, exec_ctlCall_misaligned h ha hf⟩,
    ⟨_, exec_ctlBr_next h, hbranch rel⟩, ⟨_, exec_ctlCallr_next h, hcall rel⟩, fun l hl => ⟨⟨_, exec_ctlLoop_next h hl, ?_⟩, ?_⟩⟩
  · simp only [goes, cx_setCx]
    refine ⟨?count, openLoop_loopStart .., ?len, ?drain, ?sp, ⟨rfl, rfl⟩, ?others⟩
    case count => rw [goto_loopCount, openLoop_loopCount, if_pos rfl, afterRead_aS]
    case len => rw [goto_loopLen, openLoop_loopLen, afterRead_bS]
    case drain => rw [goto_ldrain, openLoop_drain, afterRead_bS]
    case sp => rw [goto_sp, openLoop_sp, afterRead_bS, afterRead_sp]
    case others =>
      intro j hj
      rw [goto_loopCount, openLoop_loopCount, if_neg hj, afterRead_loopCount]
  · refine ⟨_, exec_ctlLoopend_next h hl, ?_⟩
    simp only [goes, cx_setCx, endLoop_sp, endLoop_loopCount]
    refine ⟨?sp, ?count, ?others, ?next⟩
    case sp => rw [closeLoop_sp, afterRead_sp, afterRead_loopCount, afterRead_ldrain]
    case count => rw [closeLoop_loopCount, if_pos rfl, afterRead_loopCount]
    case others =>
      intro j hj
      rw [closeLoop_loopCount, if_neg hj, afterRead_loopCount]
    case next =>
      have hnext := endLoop_next (s.afterRead src).cx l.toNat
      rwa [afterRead_loopCount, afterRead_loopStart, afterRead_pc, afterRead_slot] at hnext

end Sys2Proof.Machine
end

section
/-! SUPPORT. The vector units va0 and va1 (R75 to R83): when a trigger fires, what its elements hold as numbers, and what its
lanes hold. -/

namespace Sys2Proof.Machine

/-! ## Integer elements (R44, R80) -/

theorem nanCode_lt (f : Fmt) : nanCode f < 2 ^ width f := by cases f <;> decide

/-- A format's width, with its top bit apart. -/
theorem two_pow_width (f : Fmt) : 2 ^ width f = 2 * 2 ^ (width f - 1) := by cases f <;> rfl

theorem toSigned_modEq (w c : Nat) : toSigned w c ≡ c [ZMOD 2 ^ w] := by
  have hmod : ((c % 2 ^ w : Nat) : Int) ≡ c [ZMOD 2 ^ w] := by simpa using Int.mod_modEq c (2 ^ w)
  unfold toSigned
  dsimp only
  split
  · exact hmod
  · exact (Int.sub_modulus_modEq_iff).2 hmod

/-- An integer element stands for its code modulo 2^width, whether its format is signed or not. -/
theorem ival_modEq (f : Fmt) (c : Nat) : ival f c ≡ c [ZMOD 2 ^ width f] := by
  unfold ival
  split
  · have hw : width f = 8 := by cases f <;> simp_all [width]
    rw [hw]
    simpa using Int.mod_modEq c 256
  · exact toSigned_modEq ..

theorem ival_zero (f : Fmt) : ival f 0 = 0 := by cases f <;> decide

theorem wrapI_lt (w : Nat) (i : Int) : wrapI w i < 2 ^ w := by
  have h : (0 : Int) < 2 ^ w := by positivity
  have := Int.emod_lt_of_pos i h
  have := Int.emod_nonneg i h.ne'
  unfold wrapI
  zify
  rwa [Int.toNat_of_nonneg this]

/-- Wrapping sees a number modulo 2^w alone. -/
theorem wrapI_of_modEq {w n : Nat} {i : Int} (h : i ≡ n [ZMOD 2 ^ w]) : wrapI w i = n % 2 ^ w := by
  unfold wrapI
  rw [h]
  exact_mod_cast Int.toNat_natCast (n % 2 ^ w)

/-- The code of an element wraps to itself. -/
theorem wrapI_ival {f : Fmt} {c : Nat} (h : c < 2 ^ width f) : wrapI (width f) (ival f c) = c := by
  rw [wrapI_of_modEq (ival_modEq f c), Nat.mod_eq_of_lt h]

theorem wrapE_add (f : Fmt) (x y : Nat) : wrapE (· + ·) f x y = (x + y) % 2 ^ width f :=
  wrapI_of_modEq (by push_cast; exact (ival_modEq f x).add (ival_modEq f y))

theorem wrapE_mul (f : Fmt) (x y : Nat) : wrapE (· * ·) f x y = x * y % 2 ^ width f :=
  wrapI_of_modEq (by push_cast; exact (ival_modEq f x).mul (ival_modEq f y))

theorem wrapE_sub {f : Fmt} (x : Nat) {y : Nat} (hy : y < 2 ^ width f) :
    wrapE (· - ·) f x y = (x + (2 ^ width f - y)) % 2 ^ width f := by
  refine wrapI_of_modEq (((ival_modEq f x).sub (ival_modEq f y)).trans ?_)
  have hcast : ((x + (2 ^ width f - y) : Nat) : Int) = x - y + 2 ^ width f := by
    rw [Nat.cast_add, Nat.cast_sub hy.le]; push_cast; ring
  rw [hcast]
  exact (Int.add_modulus_modEq_iff.2 rfl).symm

theorem wrapE_min {f : Fmt} {x y : Nat} (hx : x < 2 ^ width f) (hy : y < 2 ^ width f) :
    wrapE min f x y = if ival f x ≤ ival f y then x else y := by
  rw [wrapE, min_def, apply_ite (wrapI (width f)), wrapI_ival hx, wrapI_ival hy]

theorem wrapE_max {f : Fmt} {x y : Nat} (hx : x < 2 ^ width f) (hy : y < 2 ^ width f) :
    wrapE max f x y = if ival f x ≤ ival f y then y else x := by
  rw [wrapE, max_def, apply_ite (wrapI (width f)), wrapI_ival hx, wrapI_ival hy]

/-- The magnitude of the most negative value is that value (R80): 2^width less its code is its code. -/
theorem wrapE_abs {f : Fmt} {x : Nat} (y : Nat) (hx : x < 2 ^ width f) :
    wrapE (fun i _ => (i.natAbs : Int)) f x y = if ival f x < 0 then 2 ^ width f - x else x := by
  have hmag (i : Int) : (i.natAbs : Int) = |i| := Int.natCast_natAbs i
  simp only [wrapE, hmag]
  split
  next hneg =>
    have hpos : x ≠ 0 := by rintro rfl; rw [ival_zero] at hneg; exact lt_irrefl _ hneg
    have hlt : 2 ^ width f - x < 2 ^ width f := by omega
    have hcast : ((2 ^ width f - x : Nat) : Int) = -x + 2 ^ width f := by rw [Nat.cast_sub hx.le]; push_cast; ring
    rw [abs_of_neg hneg, wrapI_of_modEq (n := 2 ^ width f - x) ?_, Nat.mod_eq_of_lt hlt]
    rw [hcast]
    exact (ival_modEq f x).neg.trans (Int.add_modulus_modEq_iff.2 rfl).symm
  next hnonneg => rw [abs_of_nonneg (not_lt.1 hnonneg), wrapI_ival hx]

/-! ## Signs of floating-point elements (R79) -/

theorem fabsE_lt (f : Fmt) (x : Nat) : fabsE f x < 2 ^ width f := by
  have hlow : x % 2 ^ (width f - 1) < 2 ^ (width f - 1) := Nat.mod_lt _ (Nat.two_pow_pos _)
  have hw := two_pow_width f
  unfold fabsE
  split
  · exact nanCode_lt f
  · omega

theorem fnegE_lt (f : Fmt) (x : Nat) : fnegE f x < 2 ^ width f := by
  unfold fnegE
  split
  · exact nanCode_lt f
  · exact Nat.mod_lt _ (Nat.two_pow_pos _)

/-- To add the sign bit modulo 2^width is to invert it. -/
theorem fnegE_eq {f : Fmt} {x : Nat} (hx : x < 2 ^ width f) : fnegE f x = if (decF f x).isNan then nanCode f
    else if x < 2 ^ (width f - 1) then x + 2 ^ (width f - 1) else x - 2 ^ (width f - 1) := by
  have hw := two_pow_width f
  have hflip : (x + 2 ^ (width f - 1)) % 2 ^ width f =
      if x < 2 ^ (width f - 1) then x + 2 ^ (width f - 1) else x - 2 ^ (width f - 1) := by
    split
    · exact Nat.mod_eq_of_lt (by omega)
    · rw [Nat.mod_eq_sub_mod (by omega), Nat.mod_eq_of_lt (by omega)]; omega
  rw [fnegE, hflip]

/-! ## Lanes -/

/-- A lane's truth value is that of all its elements' comparisons together (R82). -/
theorem cmpLane_iff (f : Fmt) (h : Nat → Nat → Bool) (x y : Lane) :
    cmpLane f h x y = true ↔ ∀ k, k < perLane f → h (elem f x k) (elem f y k) = true := by
  simp [cmpLane]

theorem fdotLane_eq (f : Fmt) (x y : Lane) : fdotLane f x y = BitVec.ofNat 32 (encF .fp32 0 (sumFV
    [(decF f (elem f x 0)).mul (decF f (elem f y 0)), (decF f (elem f x 1)).mul (decF f (elem f y 1))])) := rfl

theorem idotLane_eq (f : Fmt) (x y : Lane) : idotLane f x y = BitVec.ofInt 32
    (ival f (elem f x 0) * ival f (elem f y 0) + ival f (elem f x 1) * ival f (elem f y 1) +
      ival f (elem f x 2) * ival f (elem f y 2) + ival f (elem f x 3) * ival f (elem f y 3)) := by
  simp [idotLane, List.range_succ]

/-! ## Triggers -/

section
variable {s : State} {g : BitVec 4} {src : BitVec 10} {v : Nat} {cls : Fmt → Bool} {d : Fmt} {useB : Bool}

/-- A trigger that may fire meets no check (R38, R75, R77). -/
theorem vaReady_iff : s.vaReady g src v cls d useB = true ↔ s.mayIssue g src = true ∧ s.cx.busy v = false ∧
    tagBad cls d useB (s.cx.aV (3 + v)) (s.cx.bV (3 + v)) = false := by
  simp [State.vaReady, and_assoc]

/-- A trigger that may fire does. -/
theorem vaTrig_next (hr : s.vaReady g src v cls d useB = true) (F : VaFun) :
    let a := s.cx.aV (3 + v)
    let b := s.cx.bV (3 + v)
    vaTrig v cls d useB F g src s = .next (vaFire v (F (opFmt d useB a b) a b) (s.afterRead src)) := by
  obtain ⟨hissue, hbusy, htags⟩ := vaReady_iff.1 hr
  exact trigger_next hissue (by simp [htags, hbusy]) (by simp)

/-- See `vaTrig_next`. -/
theorem vaSel_next (hr : s.vaReady g src v clsA .raw true = true) (m : BitVec 3) :
    let a := s.cx.aV (3 + v)
    let b := s.cx.bV (3 + v)
    vaSel v g src m s = .next (vaFire v
      (⟨lanesOf 1024 (fun i => if (s.cx.mreg m.toNat).getLsbD i then lane a.lanes i else lane b.lanes i),
        opFmt .raw true a b, false⟩, [])
      (s.afterRead src)) := by
  obtain ⟨hissue, hbusy, htags⟩ := vaReady_iff.1 hr
  exact trigger_next hissue (by simp [htags, hbusy]) (by simp)

/-- An instruction that runs an element function lands what the function gives, cut to the format's width. -/
theorem vaElem_of_exec {i : Instr} {h k : Fmt → Nat → Nat → Nat} (hexec : exec i s = vaTrig v cls d useB (vaEl h) g src s)
    (hval : ∀ f x y, x < 2 ^ width f → y < 2 ^ width f → h f x y % 2 ^ width f = k f x y) : s.vaElem g src v i cls d useB k := by
  intro hr
  refine ⟨_, hexec.trans (vaTrig_next hr _), rfl, rfl, fun n hn e he => ?_⟩
  simp only [zip2, lane_lanesOf, hn, if_true, el2]
  exact (elem_packLane _ _ _ he).trans (hval _ _ _ (elem_lt ..) (elem_lt ..))

/-- An instruction that runs a compare lands each lane's truth value and its complement. -/
theorem vaCompares_of_exec {i : Instr} {h : Fmt → Nat → Nat → Bool} (hexec : exec i s = vaTrig v cls d true (vaCmp h) g src s) :
    s.vaCompares g src v i cls d h := by
  intro hr a b f all
  refine ⟨_, _, hexec.trans (vaTrig_next hr _), rfl, rfl, fun n hn => ?_⟩
  have hlane : cmpLane f (h f) (lane a.lanes n) (lane b.lanes n) = all n := by
    rw [Bool.eq_iff_iff, cmpLane_iff, decide_eq_true_iff]
  simp only [zip2, lane_lanesOf, hn, if_true]
  rw [hlane]
  cases all n <;> exact ⟨rfl, rfl⟩

/-- A firing whose .q is given lane by lane lands those lanes, and all false in .q2. -/
theorem vaLands_of_lanes {o : Host.Outcome State Fault Refusal} {f : Fmt} {l q : Nat → Lane}
    (ho : o = .next (vaFire v (⟨lanesOf 1024 l, f, false⟩, []) (s.afterRead src))) (hq : ∀ n, l n = q n) :
    s.vaLands src v o f q (fun _ => 0) :=
  ⟨_, _, ho, rfl, rfl, fun n hn => ⟨by rw [lane_lanesOf, if_pos hn, hq], lane_nil n⟩⟩

end

/-! ## Both units -/

section
variable {s : State} {g : BitVec 4} {src : BitVec 10} {cls : Fmt → Bool} {d : Fmt} {useB : Bool} {i j : Instr}

/-- Twins of va0 and va1 that run one element function, whose values are those of `k` on codes that fit the format. -/
theorem vaElem_both {h k : Fmt → Nat → Nat → Nat} (h0 : exec i s = vaTrig 0 cls d useB (vaEl h) g src s)
    (h1 : exec j s = vaTrig 1 cls d useB (vaEl h) g src s)
    (hval : ∀ f x y, x < 2 ^ width f → y < 2 ^ width f → h f x y % 2 ^ width f = k f x y) :
    ∀ p ∈ [(0, i), (1, j)], s.vaElem g src p.1 p.2 cls d useB k :=
  List.forall_mem_cons.2 ⟨vaElem_of_exec h0 hval, List.forall_mem_singleton.2 (vaElem_of_exec h1 hval)⟩

/-- Twins of va0 and va1 that run one compare. -/
theorem vaCompares_both {h : Fmt → Nat → Nat → Bool} (h0 : exec i s = vaTrig 0 cls d true (vaCmp h) g src s)
    (h1 : exec j s = vaTrig 1 cls d true (vaCmp h) g src s) : ∀ p ∈ [(0, i), (1, j)], s.vaCompares g src p.1 p.2 cls d h :=
  List.forall_mem_cons.2 ⟨vaCompares_of_exec h0, List.forall_mem_singleton.2 (vaCompares_of_exec h1)⟩

/-- An instruction of va0 and its twin of va1 that do the same in their units. -/
theorem exec_pick {F : Nat → Host.Outcome State Fault Refusal} (h0 : exec i s = F 0) (h1 : exec j s = F 1) {v : Nat}
    (hv : v ∈ [0, 1]) : exec (if v = 0 then i else j) s = F v := by
  rcases (by simpa using hv : v = 0 ∨ v = 1) with rfl | rfl
  · exact h0
  · exact h1

/-- Twins of va0 and va1 that work lane by lane. -/
theorem vaLands_pick (l : Fmt → Lane → Lane → Lane) (f : Fmt → Fmt) {v : Nat} {q : Nat → Lane} (hv : v ∈ [0, 1])
    (hr : s.vaReady g src v cls d useB = true)
    (h0 : exec i s = vaTrig 0 cls d useB (fun e a b => (⟨zip2 (l e) a b, f e, false⟩, [])) g src s)
    (h1 : exec j s = vaTrig 1 cls d useB (fun e a b => (⟨zip2 (l e) a b, f e, false⟩, [])) g src s)
    (hq : ∀ n, l (opFmt d useB (s.cx.aV (3 + v)) (s.cx.bV (3 + v))) (lane (s.cx.aV (3 + v)).lanes n)
      (lane (s.cx.bV (3 + v)).lanes n) = q n) :
    s.vaLands src v (exec (if v = 0 then i else j) s) (f (opFmt d useB (s.cx.aV (3 + v)) (s.cx.bV (3 + v)))) q (fun _ => 0) :=
  vaLands_of_lanes ((exec_pick (F := fun v => vaTrig v cls d useB _ g src s) h0 h1 hv).trans (vaTrig_next hr _)) hq

end

/-- Settles O21: every trigger runs an element function of the model in both units; what is left is that function's value on
codes that fit the format. -/
theorem vectorElements : Obligations.VectorElements := by
  have fits (f : Fmt) (n : Nat) (h : n < 2 ^ width f) : n % 2 ^ width f = n := Nat.mod_eq_of_lt h
  have wraps (f : Fmt) (i : Int) : wrapI (width f) i % 2 ^ width f = wrapI (width f) i := fits f _ (wrapI_lt ..)
  refine ⟨fun s g src => ⟨?fadd, ?fsub, ?fmul, ?fmin, ?fmax, ?fabs, ?fneg⟩,
    fun s g src => ⟨?add, ?sub, ?mul, ?min, ?max, ?abs, ?addsat, ?subsat, ?sll, ?srl, ?sra⟩⟩
  case fadd => exact vaElem_both rfl rfl fun _ _ _ _ _ => rfl
  case fsub => exact vaElem_both rfl rfl fun _ _ _ _ _ => rfl
  case fmul => exact vaElem_both rfl rfl fun _ _ _ _ _ => rfl
  case fmin => exact vaElem_both rfl rfl fun _ _ _ _ _ => rfl
  case fmax => exact vaElem_both rfl rfl fun _ _ _ _ _ => rfl
  case fabs => exact vaElem_both rfl rfl fun f x _ _ _ => fits f _ (fabsE_lt f x)
  case fneg => exact vaElem_both rfl rfl fun f x _ hx _ => (fits f _ (fnegE_lt f x)).trans (fnegE_eq hx)
  case add => exact vaElem_both rfl rfl fun f x y _ _ => (wraps f _).trans (wrapE_add f x y)
  case sub => exact vaElem_both rfl rfl fun f x _ _ hy => (wraps f _).trans (wrapE_sub x hy)
  case mul => exact vaElem_both rfl rfl fun f x y _ _ => (wraps f _).trans (wrapE_mul f x y)
  case min => exact vaElem_both rfl rfl fun f _ _ hx hy => (wraps f _).trans (wrapE_min hx hy)
  case max => exact vaElem_both rfl rfl fun f _ _ hx hy => (wraps f _).trans (wrapE_max hx hy)
  case abs => exact vaElem_both rfl rfl fun f _ y hx _ => (wraps f _).trans (wrapE_abs y hx)
  case addsat => exact vaElem_both rfl rfl fun f _ _ _ _ => wraps f _
  case subsat => exact vaElem_both rfl rfl fun f _ _ _ _ => wraps f _
  case sll => exact vaElem_both rfl rfl fun _ _ _ _ _ => rfl
  case srl => exact vaElem_both rfl rfl fun f x y hx _ => fits f _ ((Nat.div_le_self ..).trans_lt hx)
  case sra => exact vaElem_both rfl rfl fun f _ _ _ _ => wraps f _

/-- Settles O22: the compares run the model's compare in both units; the lane triggers give their lanes, and the two dot products
are sums of a fixed number of terms. -/
theorem vectorCompare : Obligations.VectorCompare := by
  refine ⟨fun s g src => ⟨?feq, ?flt, ?fle, ?unordered, ?eq, ?lt, ?le⟩, ?lanes⟩
  case feq => exact vaCompares_both rfl rfl
  case flt => exact vaCompares_both rfl rfl
  case fle => exact vaCompares_both rfl rfl
  case unordered => exact vaCompares_both rfl rfl
  case eq => exact vaCompares_both rfl rfl
  case lt => exact vaCompares_both rfl rfl
  case le => exact vaCompares_both rfl rfl
  case lanes =>
    intro s g src v hv a b x y pick
    refine ⟨?bits, ?fdot, ?idot⟩
    case bits =>
      intro hr f
      exact ⟨vaLands_pick (fun _ x y => x &&& y) id hv hr rfl rfl fun _ => rfl,
        vaLands_pick (fun _ x y => x ||| y) id hv hr rfl rfl fun _ => rfl,
        vaLands_pick (fun _ x y => x ^^^ y) id hv hr rfl rfl fun _ => rfl,
        vaLands_pick (fun _ x y => x &&& ~~~y) id hv hr rfl rfl fun _ => rfl,
        fun m => vaLands_of_lanes ((exec_pick (F := fun v => vaSel v g src m s) rfl rfl hv).trans (vaSel_next hr m)) fun _ => rfl⟩
    case fdot => exact fun hr => vaLands_pick fdotLane (fun _ => .fp32) hv hr rfl rfl fun n => fdotLane_eq _ (x n) (y n)
    case idot => exact fun hr => vaLands_pick idotLane (fun _ => .int32) hv hr rfl rfl fun n => idotLane_eq _ (x n) (y n)

end Sys2Proof.Machine
end

section
/-! SUPPORT. The exchange unit xch (R86) and the reduction unit red (R54, R88 to R92): what a trigger of each lands, the codes of
xch that no row of the table defines, and the tree and the scan as folds. -/

namespace Sys2Proof.Machine

/-! ## Exchange -/

/-- A DEST code that no row fixes makes no instruction (R33). -/
theorem findRow_eq_none {l : List Row} {d : Nat} (h : ∀ r ∈ l, d &&& r.mask ≠ r.pat) (g : BitVec 4) (src : BitVec 10) :
    findRow l g src d = none := by
  induction l with
  | nil => rfl
  | cons r l ih =>
    obtain ⟨hr, hl⟩ := List.forall_mem_cons.1 h
    rw [findRow, if_neg hr, ih hl]

/-- No row has one of the codes that R86 leaves out. -/
theorem triggerRows_xch_gap : ∀ n < 6, ∀ r ∈ triggerRows, (0x29A + n) &&& r.mask ≠ r.pat := by decide +kernel

theorem legalDst_of_trigger {d : BitVec 10} (h : 0x100 ≤ d.toNat) : legalDst d = false := by
  have above (n : Nat) (hn : n ≤ 0x100) : ¬ d.toNat < n := by omega
  simp [legalDst, above]

/-- A move to one of the codes that R86 leaves out is no instruction, whatever its source. -/
theorem decodeSlot_xch_gap {w : BitVec 24} (hlo : 0x29A ≤ (slotDest w).toNat) (hhi : (slotDest w).toNat ≤ 0x29F) :
    ∃ e, decodeSlot w = .error e := by
  have hnone : findRow triggerRows (slotGuard w) (slotSource w) (slotDest w).toNat = none := by
    obtain ⟨n, hn⟩ := Nat.exists_eq_add_of_le hlo
    rw [hn]
    exact findRow_eq_none (triggerRows_xch_gap n (by omega)) _ _
  have hdest : slotDest w ≠ 0 := by intro h; simp [h] at hlo
  unfold decodeSlot decodeFields
  rw [if_neg (fun h => hdest h.2.2), legalDst_of_trigger (by omega), hnone]
  cases legalSrc (slotSource w) <;> exact ⟨_, rfl⟩

/-- A field of a word as a number. -/
theorem fld_eq_div {n : Nat} (w : BitVec n) (lo len : Nat) : fld w lo len = w.toNat / 2 ^ lo % 2 ^ len := by
  rw [fld, Nat.shiftRight_eq_div_pow]

/-- The amount of a rotation may be taken off the axis first. -/
theorem add_sub_fld {n : Nat} (c : Nat) (w : BitVec n) (len : Nat) :
    c + 2 ^ len - fld w 0 len = c + (2 ^ len - w.toNat % 2 ^ len) := Nat.add_sub_assoc (fld_lt w 0 len).le c

/-- Every lane position is its row and its column. -/
theorem lane_rows (h : Nat → Nat → Lane) {r c : Nat} (hr : r < 16) (hc : c < 64) :
    lane (lanesOf 1024 (fun k => h (k / 64) (k % 64))) (64 * r + c) = h r c := by
  have hrow : (64 * r + c) / 64 = r := by omega
  have hcol : (64 * r + c) % 64 = c := by omega
  rw [lane_lanesOf, if_pos (by omega), hrow, hcol]

/-- A third register of the allocation meets no check (R76). -/
theorem thirdOut_eq_false {x : Ctx} {k : BitVec 3} (hcount : k.toNat < x.vcount) (hreg : x.vbase + k.toNat < 32) :
    x.thirdOut k = false := by
  simp only [Ctx.thirdOut, Bool.or_eq_false_iff, decide_eq_false_iff_not]
  omega

section
variable {s : State} {g : BitVec 4} {src : BitVec 10} {i : Instr} {lat : Nat}

/-- What a trigger of xch without an index register lands. -/
theorem xchDoes_of_exec {h : NMap Lane → Word → Nat → Nat → Lane} {q : Nat → Nat → Lane} (hm : s.mayIssue g src = true)
    (hexec : exec i s = xchTrig lat h g src s)
    (hq : ∀ r c, r < 16 → c < 64 → h (s.cx.aV 6).lanes (s.cx.bS 6) r c = q r c) : s.xchDoes src i lat q := by
  refine ⟨_, hexec.trans (trigger_plain hm), ?_, rfl, fun r c hr hc => ?_⟩
  · simp only [afterRead_aV]
  · rw [lane_rows _ hr hc, afterRead_aV, afterRead_bS, hq r c hr hc]

/-- What a permute lands. -/
theorem xchDoes_of_perm {h : NMap Lane → NMap Lane → Nat → Nat → Lane} {q : Nat → Nat → Lane} {k : BitVec 3}
    (hm : s.mayIssue g src = true) (hk : s.cx.thirdOut k = false) (hexec : exec i s = xchPerm lat h g src k s)
    (hq : ∀ r c, r < 16 → c < 64 → h (s.cx.aV 6).lanes (s.cx.third k).lanes r c = q r c) : s.xchDoes src i lat q := by
  refine ⟨_, hexec.trans (trigger_next hm (by simp [hk]) (by simp)), ?_, rfl, fun r c hr hc => ?_⟩
  · simp only [afterRead_aV]
  · rw [lane_rows _ hr hc, afterRead_aV, afterRead_third, hq r c hr hc]

end

/-- Settles O26: each trigger lands the lane that its row of R86 names; of a rotation, the model takes the amount off the sum of
position and axis, and the statement off the axis. -/
theorem exchange : Obligations.Exchange := by
  refine ⟨fun w => decodeSlot_xch_gap, ?triggers⟩
  intro s g src hm a b
  refine ⟨?rotr, ?shfr, ?xorr, ?tr16, ?rotc, ?shfc, ?xorc, ?bcrow, ?bccol, ?bclane, fun k hcount hreg => ?perm⟩
  case rotr =>
    exact xchDoes_of_exec hm (exec_xchRotr ..) fun r c _ _ =>
      congrArg (fun n => a r (n % 64)) (add_sub_fld c (s.cx.bS 6) 6)
  case shfr => exact xchDoes_of_exec hm (exec_xchShfr ..) fun _ _ _ _ => rfl
  case xorr => exact xchDoes_of_exec hm (exec_xchXorr ..) fun _ _ _ _ => rfl
  case tr16 => exact xchDoes_of_exec hm (exec_xchTr16 ..) fun _ _ _ _ => rfl
  case rotc =>
    exact xchDoes_of_exec hm (exec_xchRotc ..) fun r c _ _ =>
      congrArg (fun n => a (n % 16) c) (add_sub_fld r (s.cx.bS 6) 4)
  case shfc => exact xchDoes_of_exec hm (exec_xchShfc ..) fun _ _ _ _ => rfl
  case xorc => exact xchDoes_of_exec hm (exec_xchXorc ..) fun _ _ _ _ => rfl
  case bcrow => exact xchDoes_of_exec hm (exec_xchBcrow ..) fun _ _ _ _ => rfl
  case bccol => exact xchDoes_of_exec hm (exec_xchBccol ..) fun _ _ _ _ => rfl
  case bclane =>
    exact xchDoes_of_exec hm (exec_xchBclane ..) fun _ _ _ _ =>
      congrArg (fun n => a n (b % 64)) (fld_eq_div (s.cx.bS 6) 8 4)
  case perm =>
    have hin := thirdOut_eq_false hcount hreg
    exact ⟨xchDoes_of_perm hm hin (exec_xchPermr ..) fun _ _ _ _ => rfl,
      xchDoes_of_perm hm hin (exec_xchPermc ..) fun _ _ _ _ => rfl⟩

/-! ## Reduction -/

/-- Neighbours of positions 0 up to 2 m: positions 2 i and 2 i + 1 meet. -/
theorem pairUp_range (op : Nat → Nat → Nat) (m : Nat) (x : Nat → Nat) :
    pairUp op ((List.range (2 * m)).map x) = (List.range m).map (fun i => op (x (2 * i)) (x (2 * i + 1))) := by
  induction m generalizing x with
  | zero => rfl
  | succ m ih =>
    have hrest := ih (fun i => x (i + 2))
    simp only [Nat.mul_succ, List.range_succ_eq_map, List.map_cons, List.map_map, pairUp, Function.comp_def] at hrest ⊢
    rw [hrest]

/-- The tree over 2 ^ n leaves is the node over them all: `node l i` stands over the 2 ^ l leaves from i · 2 ^ l on (R54). -/
theorem treeFold_range {op : Nat → Nat → Nat} {node : Nat → Nat → Nat}
    (hnode : ∀ l i, node (l + 1) i = op (node l (2 * i)) (node l (2 * i + 1))) (n l : Nat) :
    treeFold op n ((List.range (2 ^ n)).map (node l)) = node (l + n) 0 := by
  induction n generalizing l with
  | zero => rfl
  | succ n ih =>
    have hlevel : (fun i => op (node l (2 * i)) (node l (2 * i + 1))) = node (l + 1) := funext fun i => (hnode l i).symm
    rw [treeFold, Nat.pow_succ', pairUp_range, hlevel, ih, Nat.add_right_comm, Nat.add_assoc]

theorem treeFold_of_leaves {op : Nat → Nat → Nat} {node : Nat → Nat → Nat} {leaf : Nat → Nat} (hleaf : ∀ i, node 0 i = leaf i)
    (hnode : ∀ l i, node (l + 1) i = op (node l (2 * i)) (node l (2 * i + 1))) (n : Nat) :
    treeFold op n ((List.range (2 ^ n)).map leaf) = node n 0 := by
  rw [← funext hleaf, treeFold_range hnode, Nat.zero_add]

/-- A scan is the fold up to its position (R92). -/
theorem scanTo_eq {op : Nat → Nat → Nat} {leaf scan : Nat → Nat} (h0 : scan 0 = leaf 0)
    (hs : ∀ n, scan (n + 1) = op (scan n) (leaf (n + 1))) (n : Nat) : scanTo op leaf n = scan n := by
  induction n with
  | zero => exact h0.symm
  | succ n ih => rw [scanTo, ih, hs]

section
variable {s : State} {g : BitVec 4} {src : BitVec 10} {i : Instr} {lat : Nat}

/-- A format that red accepts meets no check (R89). -/
theorem red_checks (hf : redFmt (redIn (s.cx.aV 7)) = true) :
    ∀ k ∈ [chk (!redFmt (redIn (s.cx.aV 7))) s.cls5], k = none := by simp [hf]

/-- What a trigger of red lands in red.q. -/
theorem redDoes_of_exec {h : Fmt → BitVec 1024 → NMap Lane → Nat → Nat → Nat} {q : Nat → Nat → Nat} (hm : s.mayIssue g src = true)
    (hf : redFmt (redIn (s.cx.aV 7)) = true) (hexec : exec i s = redTrig lat h g src s)
    (hq : ∀ r c, h (redIn (s.cx.aV 7)) (s.cx.mreg 7) (s.cx.aV 7).lanes r c = q r c) : s.redDoes src i lat q := by
  refine ⟨_, hexec.trans (trigger_next hm (red_checks hf) (by simp)), ?_, rfl, fun r c hr hc => ?_⟩
  · simp only [afterRead_aV]
  · rw [lane_rows (fun r c => BitVec.ofNat 32 _) hr hc, afterRead_aV, afterRead_mreg, hq]

/-- What a psN form carries to its latch (R91). -/
theorem redPs_next {mx : Bool} {n : BitVec 2} (hm : s.mayIssue g src = true) (hf : redFmt (redIn (s.cx.aV 7)) = true) :
    redPs mx g src n s = .next ((s.afterRead src).fly 5 (.psAcc n.toNat mx (accFmt (redIn (s.cx.aV 7)))
      (lanesOf 64 (fun c => BitVec.ofNat 32 (colRoot mx (redIn (s.cx.aV 7)) (s.cx.mreg 7) (s.cx.aV 7).lanes c))))) := by
  unfold redPs
  rw [trigger_next hm (red_checks hf) (by simp)]
  simp only [afterRead_aV, afterRead_mreg]

end

/-- A partial-sum latch after an accumulation lands in latch n. -/
theorem landPs_psum (x : Ctx) (n : Nat) (mx : Bool) (acc : Fmt) (roots : NMap Lane) (j : Nat) :
    (x.landPs n mx acc roots).psum j = if j = n then ⟨lanesOf 64 (fun k => BitVec.ofNat 32 (redOp mx acc
      (if (x.psum n).tag = acc then (lane (x.psum n).row k).toNat else redId mx acc) (lane roots k).toNat)), acc⟩ else x.psum j :=
  NMap.get_put ..

/-- The contexts after an accumulation lands in context c (R15 step 1, R91). -/
theorem landItem_psAcc_ctx (s : State) (c fid : Nat) (d : Word) (n : Nat) (mx : Bool) (acc : Fmt) (roots : NMap Lane) (j : Nat) :
    (landItem s c ⟨fid, d, .psAcc n mx acc roots⟩).ctx j = if j = c then (s.ctx c).landPs n mx acc roots else s.ctx j :=
  State.ctx_setCtx ..

/-- Settles O27: a root is the node over all leaves of its tree, a scan is the fold up to its position, and an accumulation lands
in its one latch. -/
theorem reduction : Obligations.Reduction := by
  refine ⟨?issue, ?landing⟩
  case issue =>
    intro s g src hm hf f leaf op node cnode scan cscan hnode0 hnode hcnode0 hcnode hscan0 hscan hcscan0 hcscan
    have hrow (mx : Bool) (r : Nat) : rowRoot mx f (s.cx.mreg 7) (s.cx.aV 7).lanes r = node mx r 6 0 :=
      treeFold_of_leaves (hnode0 mx r) (hnode mx r) 6
    have hcol (mx : Bool) (c : Nat) : colRoot mx f (s.cx.mreg 7) (s.cx.aV 7).lanes c = cnode mx c 4 0 :=
      treeFold_of_leaves (hcnode0 mx c) (hcnode mx c) 4
    have hps (mx : Bool) (n : BitVec 2) : ∃ roots, redPs mx g src n s =
        .next ((s.afterRead src).fly 5 (.psAcc n.toNat mx (accFmt f) roots)) ∧
        ∀ c, c < 64 → lane roots c = BitVec.ofNat 32 (cnode mx c 4 0) :=
      ⟨_, redPs_next hm hf, fun c hc => by rw [lane_lanesOf, if_pos hc, hcol]⟩
    exact ⟨redDoes_of_exec hm hf (exec_redRsum ..) fun r _ => hrow false r,
      redDoes_of_exec hm hf (exec_redRmax ..) fun r _ => hrow true r,
      redDoes_of_exec hm hf (exec_redCsum ..) fun _ c => hcol false c,
      redDoes_of_exec hm hf (exec_redCmax ..) fun _ c => hcol true c,
      redDoes_of_exec hm hf (exec_redRscan ..) fun r c => scanTo_eq (hscan0 r) (hscan r) c,
      redDoes_of_exec hm hf (exec_redCscan ..) fun r c => scanTo_eq (hcscan0 c) (hcscan c) r,
      fun n => List.forall_mem_cons.2 ⟨hps false n, List.forall_mem_singleton.2 (hps true n)⟩⟩
  case landing =>
    intro s c fid n d mx acc roots t q
    have hc : t.ctx c = (s.ctx c).landPs n mx acc roots := by rw [landItem_psAcc_ctx, if_pos rfl]
    have hn := (landPs_psum (s.ctx c) n mx acc roots n).trans (if_pos rfl)
    rw [hc, hn]
    refine ⟨rfl, fun k hk => ?lanes, fun i hi => ?latches, rfl, rfl, fun j hj => ?contexts, rfl, rfl⟩
    case lanes => rw [lane_lanesOf, if_pos hk]
    case latches => rw [landPs_psum, if_neg hi]
    case contexts => rw [landItem_psAcc_ctx, if_neg hj]

end Sys2Proof.Machine
end

section
/-! SUPPORT. The special function unit sfn (R93 to R98): what rounding to nearest can answer with and without saturation, where a
code is an infinity, and which results the free choice of log 1 can reach. -/

namespace Sys2Proof.Machine

/-! ## The formats of class F: their signs and infinities (R42) -/

theorem clsF_iff {f : Fmt} : clsF f = true ↔ f = .fp32 ∨ f = .bf16 ∨ f = .fp16 := by simp [clsF, or_assoc]

theorem signBit_of_clsF {f : Fmt} (hf : clsF f = true) (neg : Bool) : signBit f neg = if neg then 2 ^ (width f - 1) else 0 := by
  obtain rfl | rfl | rfl := clsF_iff.1 hf <;> rfl

/-- An infinity has a zero fraction and an exponent of ones. -/
theorem fields_of_decF_inf {f : Fmt} {c : Nat} {neg : Bool} (h : decF f c = .inf neg) :
    c % 2 ^ fracBits f = 0 ∧ c / 2 ^ fracBits f % 2 ^ expBits f = 2 ^ expBits f - 1 := by
  unfold decF at h
  dsimp only at h
  split at h
  next => cases h
  next =>
    split at h
    next hones =>
      split at h
      next hzero => simp_all [Nat.shiftRight_eq_div_pow]
      next => cases h
    next => split at h <;> cases h

/-- Below the sign bit an infinity is the code next above the largest finite value. -/
theorem mod_of_decF_inf {f : Fmt} {c : Nat} {neg : Bool} (hf : clsF f = true) (h : decF f c = .inf neg) :
    c % 2 ^ (width f - 1) = maxCode f + 1 := by
  obtain ⟨hfrac, hexp⟩ := fields_of_decF_inf h
  obtain rfl | rfl | rfl := clsF_iff.1 hf <;> simp [fracBits, expBits, width, maxCode] at hfrac hexp ⊢ <;> omega

theorem maxCode_lt (f : Fmt) : maxCode f < 2 ^ (width f - 1) := by cases f <;> decide

/-- A code whose magnitude reaches no further than the largest finite value is no infinity. -/
theorem decF_ne_inf_of_le {f : Fmt} {c : Nat} (hf : clsF f = true) (hc : c ≤ maxCode f) (s neg : Bool) :
    decF f (signBit f s + c) ≠ .inf neg := by
  intro h
  have hmod : (signBit f s + c) % 2 ^ (width f - 1) = c := by
    rw [signBit_of_clsF hf]
    cases s <;> simp [Nat.mod_eq_of_lt (hc.trans_lt (maxCode_lt f))]
  have hinf := mod_of_decF_inf hf h
  omega

/-! ## Rounding to nearest (R49, R50) -/

theorem encF_zero (f : Fmt) (mod : Nat) (neg : Bool) (e : Int) : encF f mod (.fin neg 0 e) = signBit f neg := rfl

/-- R98: the result of a saturating port beside the plain one's. -/
def Saturated (f : Fmt) (plain sat : Nat) : Prop :=
  (∀ neg, decF f plain = .inf neg → sat = signBit f neg + maxCode f) ∧
    ((∀ neg, decF f plain ≠ .inf neg) → sat = plain)

theorem saturated_self {f : Fmt} {c : Nat} (h : ∀ neg, decF f c ≠ .inf neg) : Saturated f c c :=
  ⟨fun neg hc => absurd hc (h neg), fun _ => rfl⟩

theorem decF_overflowCode {f : Fmt} (hf : clsF f = true) (neg : Bool) : decF f (overflowCode f neg 0 false) = .inf neg := by
  obtain rfl | rfl | rfl := clsF_iff.1 hf <;> cases neg <;> decide

theorem saturated_overflowCode {f : Fmt} (hf : clsF f = true) (neg : Bool) :
    Saturated f (overflowCode f neg 0 false) (overflowCode f neg 0 true) := by
  have hinf := decF_overflowCode hf neg
  refine ⟨fun s hs => ?_, fun h => absurd hinf (h neg)⟩
  obtain rfl : neg = s := FV.inf.inj (hinf.symm.trans hs)
  rfl

/-- To nearest, SAT decides only what stands beyond the largest finite value. -/
theorem saturated_encF {f : Fmt} (hf : clsF f = true) (x : FV) : Saturated f (encF f 0 x) (encF f 4 x) := by
  cases x with
  | nan =>
    refine saturated_self ?_
    obtain rfl | rfl | rfl := clsF_iff.1 hf <;> decide
  | inf neg => exact saturated_overflowCode hf neg
  | fin neg m e =>
    by_cases hm : m = 0
    · rw [hm, encF_zero, encF_zero]
      exact saturated_self (decF_ne_inf_of_le hf (Nat.zero_le _) neg)
    · simp only [encF, if_neg hm, Nat.zero_mod, Nat.reduceMod]
      generalize (if _ ≤ e then _ else _ : Nat) = q
      split
      next => exact saturated_overflowCode hf neg
      next hle =>
        refine saturated_self (decF_ne_inf_of_le hf ?_ neg)
        split
        · exact Nat.zero_le _
        · omega

/-! ## Special inputs and the free choice (R95, R97) -/

/-- What log 1 leaves open is neither special nor rounded to an infinity. -/
theorem special_and_encF_of_open' {f : Sf} {c : Nat} (h : f.open' c = true) : f.special (decF .fp32 c) = none ∧
    ∃ neg m e, decF .fp32 c = .fin neg m e ∧ encF .fp32 0 (f.real neg m e) % 2 ^ 31 ≠ 0x7F800000 := by
  unfold Sf.open' at h
  split at h
  next neg m e hspec hdec =>
    simp only [Bool.and_eq_true, bne_iff_ne] at h
    exact ⟨hspec, neg, m, e, hdec, h.2⟩
  next => cases h

theorem sfnRound_of_special {f : Sf} {sat : Bool} {fm : Fmt} {c : Nat} {x : FV} (h : f.special (decF fm c) = some x) :
    sfnRound f sat fm c = encF fm (if sat then 4 else 0) x := by
  simp [sfnRound, h]

theorem sfnRound_of_fin {f : Sf} {sat : Bool} {fm : Fmt} {c m : Nat} {neg : Bool} {e : Int} (h : f.special (decF fm c) = none)
    (hdec : decF fm c = .fin neg m e) : sfnRound f sat fm c = encF fm (if sat then 4 else 0) (f.real neg m e) := by
  unfold sfnRound
  rw [h]
  simp only [hdec]

/-- No free choice replaces a listed value. -/
theorem sfnElem_of_special {f : Sf} {sat : Bool} {fm : Fmt} {c : Nat} {x y : FV} (hc : decF fm c = x) (h : f.special x = some y) :
    sfnElem f sat fm c = encF fm (if sat then 4 else 0) y := by
  subst hc
  rw [sfnElem, if_neg, sfnRound_of_special h]
  simp only [Bool.and_eq_true, beq_iff_eq]
  rintro ⟨rfl, hopen⟩
  cases (special_and_encF_of_open' hopen).1.symm.trans h

theorem special_nan (f : Sf) : f.special .nan = some .nan := rfl

theorem special_neg {f : Sf} {m : Nat} (hf : f ∈ [Sf.log2, .ln, .sqrt, .rsqrt]) (hm : m ≠ 0) (e : Int) :
    f.special (.fin true m e) = some .nan := by
  obtain ⟨k, rfl⟩ := Nat.exists_eq_succ_of_ne_zero hm
  fin_cases hf <;> rfl

/-- Only a finite number can be other than special (R97). -/
theorem eq_fin_of_special_eq_none {f : Sf} {x : FV} (h : f.special x = none) : ∃ neg m e, x = .fin neg m e := by
  cases x with
  | nan => cases h
  | inf neg => cases h
  | fin neg m e => exact ⟨neg, m, e, rfl⟩

/-! ## Saturation (R98) -/

theorem saturated_sfnRound (f : Sf) {fm : Fmt} (hf : clsF fm = true) (c : Nat) :
    Saturated fm (sfnRound f false fm c) (sfnRound f true fm c) := by
  cases h : f.special (decF fm c) with
  | some x => simpa [sfnRound_of_special h] using saturated_encF hf x
  | none =>
    obtain ⟨neg, m, e, hdec⟩ := eq_fin_of_special_eq_none h
    simpa [sfnRound_of_fin h hdec] using saturated_encF hf (f.real neg m e)

theorem getD_mod_length_mem {l : List Nat} (hl : l ≠ []) (i : Nat) : l.getD (i % l.length) 0 ∈ l := by
  rw [List.getD_eq_getElem _ _ (Nat.mod_lt i (List.length_pos_iff.2 hl))]
  exact List.getElem_mem _

/-- Every value that log 1 may choose is finite (R95). -/
theorem le_maxCode_of_mem_sfnAllowed {f : Sf} {neg : Bool} {y : FV} {z : Nat} (h : z ∈ sfnAllowed f neg y) :
    z ≤ maxCode .fp32 := by
  unfold sfnAllowed at h
  split at h
  next =>
    simp only [List.mem_filter, Bool.and_eq_true, decide_eq_true_eq] at h
    obtain ⟨_, ⟨hle, _⟩, _⟩ := h
    exact hle
  next => cases h

/-- What log 1 leaves open does not round to an infinity (R95, overflow). -/
theorem decF_sfnRound_ne_inf_of_open' {f : Sf} {c : Nat} (h : f.open' c = true) (s : Bool) :
    decF .fp32 (sfnRound f false .fp32 c) ≠ .inf s := by
  obtain ⟨hspec, neg, m, e, hdec, hne⟩ := special_and_encF_of_open' h
  rw [sfnRound_of_fin hspec hdec]
  exact fun hinf => hne (mod_of_decF_inf rfl hinf)

/-- The free choice is the correctly rounded value, or a finite magnitude under a sign. -/
theorem sfnFree_cases (f : Sf) (c : Nat) :
    sfnFree f c = sfnRound f false .fp32 c ∨ ∃ s, ∃ z ≤ maxCode .fp32, sfnFree f c = signBit .fp32 s + z := by
  unfold sfnFree
  dsimp only
  split
  next neg m e _ =>
    split
    next => exact .inl rfl
    next hne => exact .inr ⟨_, _, le_maxCode_of_mem_sfnAllowed (getD_mod_length_mem hne _), rfl⟩
  next => exact .inl rfl

theorem decF_sfnFree_ne_inf {f : Sf} {c : Nat} (h : f.open' c = true) (s : Bool) : decF .fp32 (sfnFree f c) ≠ .inf s := by
  obtain hround | ⟨neg, z, hz, hfree⟩ := sfnFree_cases f c
  · exact hround ▸ decF_sfnRound_ne_inf_of_open' h s
  · exact hfree ▸ decF_ne_inf_of_le rfl hz neg s

/-- Saturation changes infinities alone, and a free choice is never one. -/
theorem saturated_sfnElem (f : Sf) {fm : Fmt} (hf : clsF fm = true) (c : Nat) :
    Saturated fm (sfnElem f false fm c) (sfnElem f true fm c) := by
  unfold sfnElem
  split
  next hopen =>
    obtain ⟨rfl, hopen⟩ : fm = .fp32 ∧ f.open' c = true := by simpa using hopen
    refine saturated_self fun s => ?_
    split
    · exact decF_sfnFree_ne_inf hopen s
    · exact decF_sfnRound_ne_inf_of_open' hopen s
  next => exact saturated_sfnRound f hf c

/-! ## O25 -/

/-- The code of −1 is the code of 1 under the sign bit (R42). -/
theorem encF_neg_one {f : Fmt} (hf : clsF f = true) :
    encF f 0 (.fin true 1 0) = 2 ^ (width f - 1) + encF f 0 (.fin false 1 0) := by
  obtain rfl | rfl | rfl := clsF_iff.1 hf <;> decide

/-- Settles O25: an input that R97 lists has its listed value rounded, which no free choice replaces (`sfnElem_of_special`), and a
result that log 1 leaves open is finite, so that saturation changes infinities alone (`saturated_sfnElem`). -/
theorem specialValues : Obligations.SpecialValues := by
  intro fm c hf one half z inf v
  have hlisted {f : Sf} {sat : Bool} {x y : FV} (hc : decF fm c = x) (h : f.special x = some y) :
      sfnElem f sat fm c = encF fm (if sat then 4 else 0) y := sfnElem_of_special hc h
  have hzero (neg : Bool) : encF fm 0 (.fin neg 0 0) = z neg := (encF_zero ..).trans (signBit_of_clsF hf neg)
  refine ⟨fun neg hc => ?infinite, fun neg e hc => ?zero, fun hc f sat => ?nan, fun m e hm hc f hmem => ?negative,
    fun f _ => ?saturating, rfl, rfl, rfl⟩
  -- Rows of R97 in the order of the statement; a row's `rfl` reads the listed value off `Sf.special`.
  case infinite =>
    cases neg with
    | false => exact ⟨hlisted hc rfl, hlisted hc rfl, hlisted hc rfl, hlisted hc rfl, (hlisted hc rfl).trans (hzero false),
        hlisted hc rfl, hlisted hc rfl, (hlisted hc rfl).trans (Nat.zero_add one).symm, hlisted hc rfl⟩
    | true => exact ⟨hlisted hc rfl, hlisted hc rfl, hlisted hc rfl, hlisted hc rfl, (hlisted hc rfl).trans (hzero true),
        hlisted hc rfl, hlisted hc rfl, (hlisted hc rfl).trans (encF_neg_one hf), hlisted hc rfl⟩
  case zero => exact ⟨hlisted hc rfl, hlisted hc rfl, hlisted hc rfl, hlisted hc rfl, hlisted hc rfl, hlisted hc rfl,
      (hlisted hc rfl).trans (hzero neg), (hlisted hc rfl).trans (hzero neg), hlisted hc rfl⟩
  case nan => exact hlisted hc (special_nan f)
  case negative => exact hlisted hc (special_neg hmem hm e)
  case saturating =>
    obtain ⟨hinf, hfinite⟩ := saturated_sfnElem f hf c
    exact ⟨fun neg h => (hinf neg h).trans (congrArg (· + maxCode fm) (signBit_of_clsF hf neg)), hfinite⟩

end Sys2Proof.Machine
end
